-- ==== Sys2Proof/Word.lean ====
section
/-! DEFINITION. The two widths of the 8085A: bytes and 16-bit words (spec 00_scope.md R6, R7). -/

namespace Sys2Proof

/-- An 8-bit quantity: a register, a memory byte, a port address, the accumulator (R6). -/
abbrev Byte := BitVec 8

/-- A 16-bit quantity: SP, pc, a register pair, an address; `+` and `-` are modulo 2^16 (R7, R9). -/
abbrev Word := BitVec 16

end Sys2Proof
end

