-- ==== Sys2Proof/Syntax.lean ====
section
/-! DEFINITION. The instruction set as syntax: one constructor of `Instr` for each row of spec/opcode_table.json
(95 instructions and the ten undefined first bytes), with the operand types of spec 30_encoding.md R96 to R98. -/

namespace Sys2Proof

/-- The seven general registers (10_state.md R20). Code 110 names no register: the M forms are instructions of their own. -/
inductive Reg where
  | a | b | c | d | e | h | l
deriving DecidableEq, Repr

/-- The register pairs of LXI, INX, DCX, DAD: B:C, D:E, H:L and SP (30_encoding.md R97, first row). -/
inductive Pair where
  | bc | de | hl | sp
deriving DecidableEq, Repr

/-- The pairs LDAX and STAX accept (30_encoding.md R97, R122): B:C and D:E only. -/
inductive IndexPair where
  | bc | de
deriving DecidableEq, Repr

/-- The pairs PUSH rp and POP rp accept (30_encoding.md R97, R122): B:C, D:E, H:L; SP may not be specified. -/
inductive StackPair where
  | bc | de | hl
deriving DecidableEq, Repr

/-- The eight conditions of the conditional branches (44_branch.md R210). -/
inductive Cond where
  | nz | z | nc | c | po | pe | p | m
deriving DecidableEq, Repr

/-- One constructor per row of spec/opcode_table.json, in the table's order. 8-bit operands are byte 2 of the instruction,
16-bit operands are byte 3 : byte 2 (30_encoding.md R95). -/
inductive Instr where
  -- data transfer group (41_data_transfer.md)
  | movRR (dst src : Reg)
  | movRM (dst : Reg)
  | movMR (src : Reg)
  | mviR (dst : Reg) (data : Byte)
  | mviM (data : Byte)
  | lxi (rp : Pair) (data : Word)
  | lda (addr : Word)
  | sta (addr : Word)
  | lhld (addr : Word)
  | shld (addr : Word)
  | ldax (rp : IndexPair)
  | stax (rp : IndexPair)
  | xchg
  -- arithmetic group (42_arithmetic.md)
  | addR (src : Reg)
  | addM
  | adi (data : Byte)
  | adcR (src : Reg)
  | adcM
  | aci (data : Byte)
  | subR (src : Reg)
  | subM
  | sui (data : Byte)
  | sbbR (src : Reg)
  | sbbM
  | sbi (data : Byte)
  | inrR (dst : Reg)
  | inrM
  | dcrR (dst : Reg)
  | dcrM
  | inx (rp : Pair)
  | dcx (rp : Pair)
  | dad (rp : Pair)
  | daa
  -- logical group (43_logical.md)
  | anaR (src : Reg)
  | anaM
  | ani (data : Byte)
  | xraR (src : Reg)
  | xraM
  | xri (data : Byte)
  | oraR (src : Reg)
  | oraM
  | ori (data : Byte)
  | cmpR (src : Reg)
  | cmpM
  | cpi (data : Byte)
  | rlc
  | rrc
  | ral
  | rar
  | cma
  | cmc
  | stc
  -- branch group (44_branch.md)
  | jmp (addr : Word)
  | jnz (addr : Word)
  | jz (addr : Word)
  | jnc (addr : Word)
  | jc (addr : Word)
  | jpo (addr : Word)
  | jpe (addr : Word)
  | jp (addr : Word)
  | jm (addr : Word)
  | call (addr : Word)
  | cnz (addr : Word)
  | cz (addr : Word)
  | cnc (addr : Word)
  | cc (addr : Word)
  | cpo (addr : Word)
  | cpe (addr : Word)
  | cp (addr : Word)
  | cm (addr : Word)
  | ret
  | rnz
  | rz
  | rnc
  | rc
  | rpo
  | rpe
  | rp
  | rm
  | rst (n : Nat)
  | pchl
  -- stack, I/O and machine control group (45_stack_io_control.md)
  | push (rp : StackPair)
  | pushPsw
  | pop (rp : StackPair)
  | popPsw
  | xthl
  | sphl
  | inPort (port : Byte)
  | outPort (port : Byte)
  | ei
  | di
  | hlt
  | nop
  | rim
  | sim
  -- the ten undefined first bytes (30_encoding.md R118)
  | undef08
  | undef10
  | undef18
  | undef28
  | undef38
  | undefCB
  | undefD9
  | undefDD
  | undefED
  | undefFD
deriving DecidableEq, Repr

end Sys2Proof
end

