-- ==== Sys2Proof/WellFormed.lean ====
section
/-! DEFINITION. The operand restrictions of spec 30_encoding.md R122. The operand types of Syntax.lean already leave no way
to write LDAX or STAX with H:L or SP, PUSH or POP with SP, LXI, INX, DCX or DAD with PSW, or MOV M,M. The one operand whose
type is wider than its field is RST's number. -/

namespace Sys2Proof

/-- RST accepts only 0 to 7 (30_encoding.md R122); every other operand fits its field by its type. -/
def Instr.wellFormed : Instr → Bool
  | .rst n => n < 8
  | _ => true

/-- `Instr.wellFormed` as a proposition. -/
abbrev Instr.WellFormed (i : Instr) : Prop := i.wellFormed = true

end Sys2Proof
end

