-- ==== Sys2Proof/Decode.lean ====
section
/-! DEFINITION. Instruction bytes to instructions and back (spec 30_encoding.md): the field codes (R96 to R98), the length by
first byte (R94), the decoder in the four quadrants of R100 to R103, total on any bytes, then the encoder, row by row from the
opcode table, and the table's own word form. -/

namespace Sys2Proof

/-- The high-order 8 bits of a 16-bit quantity (00_scope.md R8: PCH, SPH). -/
def highByte (w : Word) : Byte := w.extractLsb' 8 8

/-- The low-order 8 bits of a 16-bit quantity (00_scope.md R8: PCL, SPL). -/
def lowByte (w : Word) : Byte := w.extractLsb' 0 8

/-- `hi : lo`, the high-order byte on the left (00_scope.md R7; byte3 : byte2 of R13). -/
def joinBytes (hi lo : Byte) : Word := hi ++ lo

/-- The 3-bit register code DDD or SSS (R96). -/
def Reg.code : Reg → BitVec 3
  | .b => 0b000
  | .c => 0b001
  | .d => 0b010
  | .e => 0b011
  | .h => 0b100
  | .l => 0b101
  | .a => 0b111

/-- The register a 3-bit code names; code 110 names none, it selects M (R96). -/
def Reg.ofCode (code : BitVec 3) : Option Reg :=
  match code.toNat with
  | 0 => some .b
  | 1 => some .c
  | 2 => some .d
  | 3 => some .e
  | 4 => some .h
  | 5 => some .l
  | 6 => none
  | _ => some .a

/-- The 2-bit pair code RP of LXI, INX, DCX, DAD (R97). -/
def Pair.code : Pair → BitVec 2
  | .bc => 0b00
  | .de => 0b01
  | .hl => 0b10
  | .sp => 0b11

/-- The pair a 2-bit code names in LXI, INX, DCX, DAD (R97). -/
def Pair.ofCode (code : BitVec 2) : Pair :=
  match code.toNat with
  | 0 => .bc
  | 1 => .de
  | 2 => .hl
  | _ => .sp

/-- The pair code of LDAX and STAX, bit 5 always 0 (R97). -/
def IndexPair.code : IndexPair → BitVec 2
  | .bc => 0b00
  | .de => 0b01

/-- The pair code of PUSH rp and POP rp (R97). -/
def StackPair.code : StackPair → BitVec 2
  | .bc => 0b00
  | .de => 0b01
  | .hl => 0b10

/-- The number of bytes of the instruction that begins with this byte, by the bit tests of R94. An undefined first byte has
no length in the spec (R118); it counts as 1 here and the instruction it decodes to is refused. -/
def opLength (op : Byte) : Nat :=
  if op &&& 0xCF = 0x01 ∨ op &&& 0xE7 = 0x22 ∨ op &&& 0xC7 = 0xC2 ∨ op &&& 0xC7 = 0xC4 ∨ op = 0xC3 ∨ op = 0xCD then 3
  else if op &&& 0xC7 = 0x06 ∨ op &&& 0xC7 = 0xC6 ∨ op = 0xD3 ∨ op = 0xDB then 2
  else 1

/-- Bits 5:3 of the first byte: DDD, CCC, NNN or OOO (R92). -/
def fieldDDD (op : Byte) : BitVec 3 := op.extractLsb' 3 3

/-- Bits 2:0 of the first byte: SSS (R92). -/
def fieldSSS (op : Byte) : BitVec 3 := op.extractLsb' 0 3

/-- Bits 5:4 of the first byte: RP (R92). -/
def fieldRP (op : Byte) : BitVec 2 := op.extractLsb' 4 2

/-- Quadrant 00 (R100). -/
def decodeQuadrant0 (op b2 b3 : Byte) : Instr :=
  match (fieldSSS op).toNat, (fieldDDD op).toNat with
  | 0, 0 => .nop
  | 0, 1 => .undef08
  | 0, 2 => .undef10
  | 0, 3 => .undef18
  | 0, 4 => .rim
  | 0, 5 => .undef28
  | 0, 6 => .sim
  | 0, _ => .undef38
  | 1, y => if y % 2 = 0 then .lxi (Pair.ofCode (fieldRP op)) (joinBytes b3 b2) else .dad (Pair.ofCode (fieldRP op))
  | 2, 0 => .stax .bc
  | 2, 1 => .ldax .bc
  | 2, 2 => .stax .de
  | 2, 3 => .ldax .de
  | 2, 4 => .shld (joinBytes b3 b2)
  | 2, 5 => .lhld (joinBytes b3 b2)
  | 2, 6 => .sta (joinBytes b3 b2)
  | 2, _ => .lda (joinBytes b3 b2)
  | 3, y => if y % 2 = 0 then .inx (Pair.ofCode (fieldRP op)) else .dcx (Pair.ofCode (fieldRP op))
  | 4, _ => match Reg.ofCode (fieldDDD op) with
    | some r => .inrR r
    | none => .inrM
  | 5, _ => match Reg.ofCode (fieldDDD op) with
    | some r => .dcrR r
    | none => .dcrM
  | 6, _ => match Reg.ofCode (fieldDDD op) with
    | some r => .mviR r b2
    | none => .mviM b2
  | _, 0 => .rlc
  | _, 1 => .rrc
  | _, 2 => .ral
  | _, 3 => .rar
  | _, 4 => .daa
  | _, 5 => .cma
  | _, 6 => .stc
  | _, _ => .cmc

/-- Quadrant 01 (R101): moves, and HLT where both codes are 110. -/
def decodeQuadrant1 (op : Byte) : Instr :=
  match Reg.ofCode (fieldDDD op), Reg.ofCode (fieldSSS op) with
  | some dst, some src => .movRR dst src
  | some dst, none => .movRM dst
  | none, some src => .movMR src
  | none, none => .hlt

/-- Quadrant 10 (R102): the accumulator operations on a register or M, by OOO = bits 5:3. -/
def decodeQuadrant2 (op : Byte) : Instr :=
  match (fieldDDD op).toNat, Reg.ofCode (fieldSSS op) with
  | 0, some r => .addR r
  | 0, none => .addM
  | 1, some r => .adcR r
  | 1, none => .adcM
  | 2, some r => .subR r
  | 2, none => .subM
  | 3, some r => .sbbR r
  | 3, none => .sbbM
  | 4, some r => .anaR r
  | 4, none => .anaM
  | 5, some r => .xraR r
  | 5, none => .xraM
  | 6, some r => .oraR r
  | 6, none => .oraM
  | _, some r => .cmpR r
  | _, none => .cmpM

/-- Quadrant 11 (R103). -/
def decodeQuadrant3 (op b2 b3 : Byte) : Instr :=
  match (fieldSSS op).toNat, (fieldDDD op).toNat with
  | 0, 0 => .rnz
  | 0, 1 => .rz
  | 0, 2 => .rnc
  | 0, 3 => .rc
  | 0, 4 => .rpo
  | 0, 5 => .rpe
  | 0, 6 => .rp
  | 0, _ => .rm
  | 1, 0 => .pop .bc
  | 1, 1 => .ret
  | 1, 2 => .pop .de
  | 1, 3 => .undefD9
  | 1, 4 => .pop .hl
  | 1, 5 => .pchl
  | 1, 6 => .popPsw
  | 1, _ => .sphl
  | 2, 0 => .jnz (joinBytes b3 b2)
  | 2, 1 => .jz (joinBytes b3 b2)
  | 2, 2 => .jnc (joinBytes b3 b2)
  | 2, 3 => .jc (joinBytes b3 b2)
  | 2, 4 => .jpo (joinBytes b3 b2)
  | 2, 5 => .jpe (joinBytes b3 b2)
  | 2, 6 => .jp (joinBytes b3 b2)
  | 2, _ => .jm (joinBytes b3 b2)
  | 3, 0 => .jmp (joinBytes b3 b2)
  | 3, 1 => .undefCB
  | 3, 2 => .outPort b2
  | 3, 3 => .inPort b2
  | 3, 4 => .xthl
  | 3, 5 => .xchg
  | 3, 6 => .di
  | 3, _ => .ei
  | 4, 0 => .cnz (joinBytes b3 b2)
  | 4, 1 => .cz (joinBytes b3 b2)
  | 4, 2 => .cnc (joinBytes b3 b2)
  | 4, 3 => .cc (joinBytes b3 b2)
  | 4, 4 => .cpo (joinBytes b3 b2)
  | 4, 5 => .cpe (joinBytes b3 b2)
  | 4, 6 => .cp (joinBytes b3 b2)
  | 4, _ => .cm (joinBytes b3 b2)
  | 5, 0 => .push .bc
  | 5, 1 => .call (joinBytes b3 b2)
  | 5, 2 => .push .de
  | 5, 3 => .undefDD
  | 5, 4 => .push .hl
  | 5, 5 => .undefED
  | 5, 6 => .pushPsw
  | 5, _ => .undefFD
  | 6, 0 => .adi b2
  | 6, 1 => .aci b2
  | 6, 2 => .sui b2
  | 6, 3 => .sbi b2
  | 6, 4 => .ani b2
  | 6, 5 => .xri b2
  | 6, 6 => .ori b2
  | 6, _ => .cpi b2
  | _, n => .rst n

/-- The instruction with this first byte and these operand bytes (R111): total, the first byte alone selects it. Operand
bytes the instruction does not have are ignored. -/
def decodeOp (op b2 b3 : Byte) : Instr :=
  match (op.extractLsb' 6 2).toNat with
  | 0 => decodeQuadrant0 op b2 b3
  | 1 => decodeQuadrant1 op
  | 2 => decodeQuadrant2 op
  | _ => decodeQuadrant3 op b2 b3

/-- Why a list of bytes holds no whole instruction. Every first byte decodes (R111), so only missing bytes can stop the
decoder; the ten undefined first bytes decode to instructions that the machine refuses by name. -/
inductive DecodeError where
  /-- The list is empty. -/
  | noBytes
  /-- The list ends before the operand bytes that this first byte calls for. -/
  | missingOperand (opcode : Byte)
deriving DecidableEq, Repr

/-- The instruction at the head of a list of bytes, lowest address first, and the bytes after it (R90, R111). -/
def decode : List Byte → Except DecodeError (Instr × List Byte)
  | [] => .error .noBytes
  | op :: rest =>
    match opLength op, rest with
    | 1, _ => .ok (decodeOp op 0 0, rest)
    | 2, b2 :: rest => .ok (decodeOp op b2 0, rest)
    | 3, b2 :: b3 :: rest => .ok (decodeOp op b2 b3, rest)
    | _, _ => .error (.missingOperand op)

/-- A three-byte instruction: operation code, low-order byte, high-order byte (R91, format A3). -/
def encodeA3 (op : Byte) (w : Word) : List Byte := [op, lowByte w, highByte w]

/-- The bytes of an instruction, lowest address first, written from the encoding column of spec/opcode_table.json. -/
def encode : Instr → List Byte
  | .movRR dst src => [0b01#2 ++ dst.code ++ src.code]
  | .movRM dst => [0b01#2 ++ dst.code ++ 0b110#3]
  | .movMR src => [0b01110#5 ++ src.code]
  | .mviR dst v => [0b00#2 ++ dst.code ++ 0b110#3, v]
  | .mviM v => [0b00110110, v]
  | .lxi p w => encodeA3 (0b00#2 ++ p.code ++ 0b0001#4) w
  | .lda a => encodeA3 0b00111010 a
  | .sta a => encodeA3 0b00110010 a
  | .lhld a => encodeA3 0b00101010 a
  | .shld a => encodeA3 0b00100010 a
  | .ldax p => [0b00#2 ++ p.code ++ 0b1010#4]
  | .stax p => [0b00#2 ++ p.code ++ 0b0010#4]
  | .xchg => [0b11101011]
  | .addR r => [0b10000#5 ++ r.code]
  | .addM => [0b10000110]
  | .adi v => [0b11000110, v]
  | .adcR r => [0b10001#5 ++ r.code]
  | .adcM => [0b10001110]
  | .aci v => [0b11001110, v]
  | .subR r => [0b10010#5 ++ r.code]
  | .subM => [0b10010110]
  | .sui v => [0b11010110, v]
  | .sbbR r => [0b10011#5 ++ r.code]
  | .sbbM => [0b10011110]
  | .sbi v => [0b11011110, v]
  | .inrR r => [0b00#2 ++ r.code ++ 0b100#3]
  | .inrM => [0b00110100]
  | .dcrR r => [0b00#2 ++ r.code ++ 0b101#3]
  | .dcrM => [0b00110101]
  | .inx p => [0b00#2 ++ p.code ++ 0b0011#4]
  | .dcx p => [0b00#2 ++ p.code ++ 0b1011#4]
  | .dad p => [0b00#2 ++ p.code ++ 0b1001#4]
  | .daa => [0b00100111]
  | .anaR r => [0b10100#5 ++ r.code]
  | .anaM => [0b10100110]
  | .ani v => [0b11100110, v]
  | .xraR r => [0b10101#5 ++ r.code]
  | .xraM => [0b10101110]
  | .xri v => [0b11101110, v]
  | .oraR r => [0b10110#5 ++ r.code]
  | .oraM => [0b10110110]
  | .ori v => [0b11110110, v]
  | .cmpR r => [0b10111#5 ++ r.code]
  | .cmpM => [0b10111110]
  | .cpi v => [0b11111110, v]
  | .rlc => [0b00000111]
  | .rrc => [0b00001111]
  | .ral => [0b00010111]
  | .rar => [0b00011111]
  | .cma => [0b00101111]
  | .cmc => [0b00111111]
  | .stc => [0b00110111]
  | .jmp a => encodeA3 0b11000011 a
  | .jnz a => encodeA3 0b11000010 a
  | .jz a => encodeA3 0b11001010 a
  | .jnc a => encodeA3 0b11010010 a
  | .jc a => encodeA3 0b11011010 a
  | .jpo a => encodeA3 0b11100010 a
  | .jpe a => encodeA3 0b11101010 a
  | .jp a => encodeA3 0b11110010 a
  | .jm a => encodeA3 0b11111010 a
  | .call a => encodeA3 0b11001101 a
  | .cnz a => encodeA3 0b11000100 a
  | .cz a => encodeA3 0b11001100 a
  | .cnc a => encodeA3 0b11010100 a
  | .cc a => encodeA3 0b11011100 a
  | .cpo a => encodeA3 0b11100100 a
  | .cpe a => encodeA3 0b11101100 a
  | .cp a => encodeA3 0b11110100 a
  | .cm a => encodeA3 0b11111100 a
  | .ret => [0b11001001]
  | .rnz => [0b11000000]
  | .rz => [0b11001000]
  | .rnc => [0b11010000]
  | .rc => [0b11011000]
  | .rpo => [0b11100000]
  | .rpe => [0b11101000]
  | .rp => [0b11110000]
  | .rm => [0b11111000]
  | .rst n => [0b11#2 ++ BitVec.ofNat 3 n ++ 0b111#3]
  | .pchl => [0b11101001]
  | .push p => [0b11#2 ++ p.code ++ 0b0101#4]
  | .pushPsw => [0b11110101]
  | .pop p => [0b11#2 ++ p.code ++ 0b0001#4]
  | .popPsw => [0b11110001]
  | .xthl => [0b11100011]
  | .sphl => [0b11111001]
  | .inPort p => [0b11011011, p]
  | .outPort p => [0b11010011, p]
  | .ei => [0b11111011]
  | .di => [0b11110011]
  | .hlt => [0b01110110]
  | .nop => [0b00000000]
  | .rim => [0b00100000]
  | .sim => [0b00110000]
  | .undef08 => [0b00001000]
  | .undef10 => [0b00010000]
  | .undef18 => [0b00011000]
  | .undef28 => [0b00101000]
  | .undef38 => [0b00111000]
  | .undefCB => [0b11001011]
  | .undefD9 => [0b11011001]
  | .undefDD => [0b11011101]
  | .undefED => [0b11101101]
  | .undefFD => [0b11111101]

/-- The three bytes, lowest address first, of an instruction whose bits are `w` as the opcode table numbers them: bit 0 is
the least significant bit of byte 1, byte 2 is bits 15..8, byte 3 bits 23..16; every bit from `nbits` on is 0. -/
def tableBytes (nbits w : Nat) : List Byte :=
  let v := w % 2 ^ nbits
  [BitVec.ofNat 8 v, BitVec.ofNat 8 (v / 256), BitVec.ofNat 8 (v / 65536)]

/-- The instruction the decoder reads from a table word (none where it refuses). -/
def decodeTableWord (nbits w : Nat) : Option Instr :=
  match decode (tableBytes nbits w) with
  | .ok (i, _) => some i
  | .error _ => none

end Sys2Proof
end

