-- ==== Sys2Proof/Config.lean ====
section
/-! DEFINITION. What the spec leaves open: the parameters of spec 00_scope.md R5 that a platform fixes, as plain data, and
the free values (00_scope.md R12, 93_implementation_defined.md section 1), as opaque constants that no proof can look into.
Each free value is applied to the draw counter of State, so two draws are unrelated. -/

namespace Sys2Proof

/-- The five interrupt request inputs (60_exceptions.md R285). -/
inductive Source where
  | trap | rst75 | rst65 | rst55 | intr
deriving DecidableEq, Repr

/-- What the platform has put at a memory address (20_memory.md R64). `unpopulated` also stands for an address where the
platform has a device: no rule says what it answers. -/
inductive MemKind where
  | ram | rom | unpopulated
deriving DecidableEq, Repr

/-- A run of `size` addresses from `base`, all of one kind (parameter MEMMAP, 20_memory.md R64). -/
structure Region where
  base : Nat
  size : Nat
  kind : MemKind
deriving DecidableEq, Repr

/-- The parameters of 00_scope.md R5 that stay fixed while the machine runs. -/
structure Params where
  vecTrap : Word
  vecRst75 : Word
  vecRst65 : Word
  vecRst55 : Word
  /-- INT_PRIORITY: the five inputs, highest first. -/
  priority : List Source
  /-- RESET_PC: pc after RESET IN. -/
  resetPc : Word
  /-- MEMMAP: the first region that holds an address gives its kind; an address in no region is RAM. -/
  memMap : List Region
deriving DecidableEq, Repr

/-- The spec's default parameters (00_scope.md R5, 92_eei_decisions.md section 2). PRESUMED: the vectors, the priority and
the reset address are general knowledge in the spec (log 4, 19); unsafe for a platform that differs, safe in a statement over
every `Params`. DESIGN CHOICE: every address is RAM (log 8); unsafe in the same way. -/
def Params.standard : Params where
  vecTrap := 0x0024
  vecRst75 := 0x003C
  vecRst65 := 0x0034
  vecRst55 := 0x002C
  priority := [.trap, .rst75, .rst65, .rst55, .intr]
  resetPc := 0x0000
  memMap := []

namespace Config

/-- PSW_X: bits 5, 3, 1 of the flag word a PUSH PSW stores (45_stack_io_control.md R252, U1; log 10). -/
opaque pswX : Nat → BitVec 3

/-- Bit 3 of a RIM executed directly after an EI (45_stack_io_control.md R263, U5; log 11). -/
opaque rimEnable : Nat → Bool

/-- The enable status a TRAP saves directly after an EI (60_exceptions.md R289, U6; log 12). -/
opaque trapEnable : Nat → Bool

/-- The byte a read of an unpopulated address returns (20_memory.md R64, U3; log 9). -/
opaque openBus : Nat → Byte

/-- IODEV: the byte an IN reads from a port when the input schedule names none (20_memory.md R66, U4; log 13). -/
opaque portByte : Nat → Byte → Byte

/-- SID: the serial input a RIM reads when the input schedule names none (10_state.md R45, U10; log 14). -/
opaque serialIn : Nat → Bool

/-- The RST 6.5 pin a RIM reads when the input schedule names no level (10_state.md R40, U11; log 14). -/
opaque rimPin65 : Nat → Bool

/-- The RST 5.5 pin a RIM reads when the input schedule names no level (10_state.md R40, U11; log 14). -/
opaque rimPin55 : Nat → Bool

/-- A general register after RESET IN (70_reset_and_hazards.md R321, U9; log 6). -/
opaque resetReg : Nat → Reg → Byte

/-- SP after RESET IN (70_reset_and_hazards.md R321, U9; log 6). -/
opaque resetSp : Nat → Word

/-- Z, S, P, CY, AC (bits 4 to 0) after RESET IN (10_state.md R32, U9; log 6). -/
opaque resetFlags : Nat → BitVec 5

/-- IE_BEFORE_TRAP after RESET IN (70_reset_and_hazards.md R320, U9; log 6). -/
opaque resetIeBeforeTrap : Nat → Bool

end Config

end Sys2Proof
end

