-- ==== Sys2Proof/Machine/State.lean ====
section
/-! DEFINITION. The state of the machine: every cell of spec 10_state.md R50, the memory, and (in `Env`) the model's own
fields: the environment inputs, the pending TRAP request, the outputs seen, the draw counter, the platform parameters. -/

namespace Sys2Proof.Machine

/-- The seven general registers (R20). -/
structure Regs where
  a : Byte
  b : Byte
  c : Byte
  d : Byte
  e : Byte
  h : Byte
  l : Byte
deriving DecidableEq, Repr

/-- The five condition flags, five separate 1-bit cells (R26). -/
structure Flags where
  z : Bool
  s : Bool
  p : Bool
  cy : Bool
  ac : Bool
deriving DecidableEq, Repr

/-- The interrupt cells (R35 to R38, R41). -/
structure Interrupts where
  /-- IE, the interrupt enable flag (R35). -/
  ie : Bool
  /-- EI_PENDING, the delayed enable of an EI (R36). -/
  eiPending : Bool
  /-- M55, M65, M75: 1 disables the interrupt (R37). -/
  m55 : Bool
  m65 : Bool
  m75 : Bool
  /-- I75, the edge-triggered RST 7.5 latch (R38). -/
  i75 : Bool
  /-- TRAP_TAKEN: the next RIM is the first after a TRAP (R41). -/
  trapTaken : Bool
  /-- IE_BEFORE_TRAP: IE before the last TRAP (R41). -/
  ieBeforeTrap : Bool
deriving DecidableEq, Repr

/-- Memory: the bytes that differ from what an unlisted address reads as, addresses strictly rising (`Memory.wf`, R60). -/
abbrev Memory := List Host.Cell

/-- One thing the environment sees the machine do: a bus access (20_memory.md R69, R70), or a change of the serial output
(60_exceptions.md R303). -/
inductive BusEvent where
  /-- Opcode fetch, machine cycle F or S. -/
  | fetch (addr : Word) (v : Byte)
  /-- Memory read, machine cycle R. -/
  | memRead (addr : Word) (v : Byte)
  /-- Memory write, machine cycle W. -/
  | memWrite (addr : Word) (v : Byte)
  /-- I/O read, machine cycle I. -/
  | ioRead (port v : Byte)
  /-- I/O write, machine cycle O. -/
  | ioWrite (port v : Byte)
  /-- Interrupt acknowledge read, INTA (60_exceptions.md R292). -/
  | inta (v : Byte)
  /-- SOD, which drives the serial output line, has changed to this level (60_exceptions.md R303). -/
  | serialOut (level : Bool)
deriving DecidableEq, Repr

/-- What the environment supplies during one step (10_state.md R43): what happens before and at its boundary, and what the
instruction that runs in it may read. `none` means that nothing is scheduled; the value is then a free one. -/
structure Inputs where
  /-- RESET IN is asserted at this boundary. -/
  resetIn : Bool
  /-- A TRAP request event arrives before this boundary. -/
  trap : Bool
  /-- A rising edge on the RST 7.5 pin arrives before this boundary. -/
  rst75Edge : Bool
  /-- Pin65(), Pin55(), IntrReq(): the levels at this boundary. -/
  pin65 : Bool
  pin55 : Bool
  intr : Bool
  /-- IntaRead(): the bytes an acknowledged device drives, in order. -/
  inta1 : Byte
  inta2 : Byte
  inta3 : Byte
  /-- SidRead(), Pin65() and Pin55() at the moment a RIM runs in this step. -/
  serialIn : Option Bool
  rimPin65 : Option Bool
  rimPin55 : Option Bool
  /-- IoRead(port): the byte the port of an IN in this step drives. -/
  portByte : Option Byte
deriving DecidableEq, Repr

/-- No request and nothing scheduled: the inputs of every step after the end of the schedule (DESIGN CHOICE, unsafe: log 15). -/
def Inputs.idle : Inputs where
  resetIn := false
  trap := false
  rst75Edge := false
  pin65 := false
  pin55 := false
  intr := false
  inta1 := 0
  inta2 := 0
  inta3 := 0
  serialIn := none
  rimPin65 := none
  rimPin55 := none
  portByte := none

/-- The model's own fields: what stands around the processor. None is a cell of R50. -/
structure Env where
  /-- The environment's inputs, one record a step, the next step's first (R43; log 15). -/
  inputs : List Inputs
  /-- TrapReq is present: a TRAP request event has arrived and has not been consumed (60_exceptions.md R285, R289; log 16). -/
  trapReq : Bool
  /-- The bus accesses and serial output changes so far, latest first (20_memory.md R76, 60_exceptions.md R303; log 30). -/
  bus : List BusEvent
  /-- How many draws have been made (00_scope.md R12; log 35). -/
  draws : Nat
  /-- The platform's parameters (00_scope.md R5); no step changes them. -/
  params : Params
deriving DecidableEq, Repr

/-- The machine: the cells of R50, the memory, and the environment's side. -/
structure State where
  regs : Regs
  sp : Word
  pc : Word
  flags : Flags
  irq : Interrupts
  /-- SOD, the serial output latch (R39). -/
  sod : Bool
  /-- HALTED (R42). -/
  halted : Bool
  mem : Memory
  env : Env
deriving DecidableEq, Repr

/-- Why a step stops with a fault: never. The 8085A of the spec raises no synchronous exception and no access faults
(60_exceptions.md R280, R281), so the type has no constructor. -/
inductive Fault where
deriving DecidableEq, Repr

/-- Why a step makes no claim about what follows. -/
inductive Refusal where
  /-- Raised by `exec` for an instruction without a meaning; no arm raises it. Safe. -/
  | notModelled (mnemonic : String)
  /-- Raised by the meanings of the ten undefined first bytes: the spec's `refuse(undefined_opcode)` (30_encoding.md R118). Safe. -/
  | undefinedOpcode (opcode : Byte)
  /-- Raised by an INTR acknowledge whose byte is EI or DI, which the source prohibits (70_reset_and_hazards.md R331). Safe. -/
  | prohibitedAcknowledge (opcode : Byte)
  /-- Raised by an INTR acknowledge whose byte is neither RST n nor CALL nor EI nor DI (60_exceptions.md R292). Safe. -/
  | undescribedAcknowledge (opcode : Byte)
deriving DecidableEq, Repr

/-- The outcome of a meaning or of a step. -/
abbrev Outcome := Host.Outcome State Fault Refusal

/-- The machine right after RESET IN (R50, 70_reset_and_hazards.md R320). M55 = M65 = M75 = 1, I75 = 0 and SOD = 0 are the
source's. pc and IE are PRESUMED (log 4, 5). EI_PENDING, TRAP_TAKEN and HALTED are 0 by the spec's decision (log 5). The
registers, SP, the flags and IE_BEFORE_TRAP have no value in the spec: DESIGN CHOICE zero (log 1, 2, 3, 5), unsafe. -/
def State.reset : State where
  regs := { a := 0, b := 0, c := 0, d := 0, e := 0, h := 0, l := 0 }
  sp := 0
  pc := Params.standard.resetPc
  flags := { z := false, s := false, p := false, cy := false, ac := false }
  irq := { ie := false, eiPending := false, m55 := true, m65 := true, m75 := true, i75 := false,
           trapTaken := false, ieBeforeTrap := false }
  sod := false
  halted := false
  mem := []
  env := { inputs := [], trapReq := false, bus := [], draws := 0, params := Params.standard }

end Sys2Proof.Machine
end

