-- ==== Sys2Proof/Machine/Flags.lean ====
section
/-! DEFINITION. The arithmetic helpers and every flag computation of the spec: add8 and sub8 (42_arithmetic.md R151, R152),
the Z, S, P rule (10_state.md R27), the logical flags (43_logical.md), DAA (R172), the rotates, the 16-bit add of DAD, the
flag word (10_state.md R34) and the eight conditions (44_branch.md R210). -/

namespace Sys2Proof.Machine

/-- An 8-bit result with its carry and auxiliary carry. -/
structure AluOut where
  res : Byte
  cy : Bool
  ac : Bool
deriving DecidableEq, Repr

/-- add8 (R151): the 9-bit sum gives the result and CY, the 5-bit sum of the low halves gives AC. -/
def add8 (x y : Byte) (cin : Bool) : AluOut :=
  let sum : BitVec 9 := x.setWidth 9 + y.setWidth 9 + (BitVec.ofBool cin).setWidth 9
  let low : BitVec 5 := (x.extractLsb' 0 4).setWidth 5 + (y.extractLsb' 0 4).setWidth 5 + (BitVec.ofBool cin).setWidth 5
  { res := sum.setWidth 8, cy := sum.getLsbD 8, ac := low.getLsbD 4 }

/-- sub8 (R152): x + ~y + (1 - borrow in); CY is the inverse of the carry out, AC is the carry out of bit 3, not inverted
(DEDUCED: the spec's reading D2, log 23; unsafe for a chip whose AC reports a borrow). -/
def sub8 (x y : Byte) (bin : Bool) : AluOut :=
  let out := add8 x (~~~y) (!bin)
  { res := out.res, cy := !out.cy, ac := out.ac }

/-- parity_even (00_scope.md R7): the modulo 2 sum of the bits is 0. -/
def parityEven (v : Byte) : Bool :=
  !(v.getLsbD 0 ^^ v.getLsbD 1 ^^ v.getLsbD 2 ^^ v.getLsbD 3 ^^ v.getLsbD 4 ^^ v.getLsbD 5 ^^ v.getLsbD 6 ^^ v.getLsbD 7)

/-- set_ZSP (10_state.md R27), with the CY and AC that go with it. -/
def flagsOf (res : Byte) (cy ac : Bool) : Flags :=
  { z := res == 0, s := res.getLsbD 7, p := parityEven res, cy := cy, ac := ac }

/-- All five flags of an addition, subtraction or comparison (R28, R29). -/
def AluOut.flags (out : AluOut) : Flags := flagsOf out.res out.cy out.ac

/-- The flags of INR and DCR: all but CY, which keeps its value (R165, R167). -/
def AluOut.flagsKeepCy (out : AluOut) (old : Flags) : Flags := flagsOf out.res old.cy out.ac

/-- The flags of the AND instructions: CY cleared, AC set (R181). -/
def andFlags (res : Byte) : Flags := flagsOf res false true

/-- The flags of the OR and exclusive-OR instructions: CY and AC cleared (R184, R187). -/
def orFlags (res : Byte) : Flags := flagsOf res false false

/-- Add 6 to the low digit, where DAA's step 1 calls for it (R172). -/
def daaLow (acc : Byte) (ac : Bool) : AluOut :=
  add8 acc (if 9 < acc.extractLsb' 0 4 ∨ ac = true then 0x06 else 0x00) false

/-- Add 6 to the high digit of the value after step 1, where DAA's step 2 calls for it (R172; a carry out of step 1 counts
as CY, DEDUCED: the spec's reading D3, log 24). -/
def daaHigh (low : AluOut) (cy : Bool) : AluOut :=
  add8 low.res (if 9 < low.res.extractLsb' 4 4 ∨ cy = true ∨ low.cy = true then 0x60 else 0x00) false

/-- DAA (R172): the adjusted accumulator, CY = old CY or a carry of either step, AC = the carry out of bit 3 in step 1. -/
def daaOut (acc : Byte) (cy ac : Bool) : AluOut :=
  let low := daaLow acc ac
  let high := daaHigh low cy
  { res := high.res, cy := cy || low.cy || high.cy, ac := low.ac }

/-- A rotate's new accumulator and CY. -/
structure Rotated where
  acc : Byte
  cy : Bool
deriving DecidableEq, Repr

/-- RLC (43_logical.md R193): A[6:0] : A[7]. -/
def rotateLeft (acc : Byte) : Rotated :=
  { acc := acc.extractLsb' 0 7 ++ acc.extractLsb' 7 1, cy := acc.getLsbD 7 }

/-- RRC (R194): A[0] : A[7:1]. -/
def rotateRight (acc : Byte) : Rotated :=
  { acc := acc.extractLsb' 0 1 ++ acc.extractLsb' 1 7, cy := acc.getLsbD 0 }

/-- RAL (R195): A[6:0] : old CY. -/
def rotateLeftThroughCarry (acc : Byte) (cy : Bool) : Rotated :=
  { acc := acc.extractLsb' 0 7 ++ BitVec.ofBool cy, cy := acc.getLsbD 7 }

/-- RAR (R196): old CY : A[7:1]. -/
def rotateRightThroughCarry (acc : Byte) (cy : Bool) : Rotated :=
  { acc := BitVec.ofBool cy ++ acc.extractLsb' 1 7, cy := acc.getLsbD 0 }

/-- The 17-bit sum of DAD (42_arithmetic.md R171). -/
def dadSum (hl pair : Word) : BitVec 17 := hl.setWidth 17 + pair.setWidth 17

/-- The flag word S Z X AC X P X CY with the three X bits given (10_state.md R34, 45_stack_io_control.md R252). -/
def flagWord (f : Flags) (x : BitVec 3) : Byte :=
  BitVec.ofBool f.s ++ BitVec.ofBool f.z ++ BitVec.ofBool (x.getLsbD 2) ++ BitVec.ofBool f.ac ++
    BitVec.ofBool (x.getLsbD 1) ++ BitVec.ofBool f.p ++ BitVec.ofBool (x.getLsbD 0) ++ BitVec.ofBool f.cy

/-- The flags POP PSW takes from a flag word; bits 5, 3, 1 are ignored (R254). -/
def flagsOfWord (w : Byte) : Flags :=
  { z := w.getLsbD 6, s := w.getLsbD 7, p := w.getLsbD 2, cy := w.getLsbD 0, ac := w.getLsbD 4 }

/-- cond(CCC) (44_branch.md R210). -/
def Flags.holds (f : Flags) : Cond → Bool
  | .nz => !f.z
  | .z => f.z
  | .nc => !f.cy
  | .c => f.cy
  | .po => !f.p
  | .pe => f.p
  | .p => !f.s
  | .m => f.s

end Sys2Proof.Machine
end

