-- ==== Sys2Proof/Machine/Ops.lean ====
section
/-! DEFINITION. The named operations over registers, memory, bus and stack, and taking an interrupt (60_exceptions.md R286 to
R292) with the return from one beside it (R293). -/

namespace Sys2Proof.Machine

/-! ### Registers and pairs (10_state.md R20, R21) -/

/-- x[i] (00_scope.md R8). -/
def State.reg (s : State) : Reg → Byte
  | .a => s.regs.a
  | .b => s.regs.b
  | .c => s.regs.c
  | .d => s.regs.d
  | .e => s.regs.e
  | .h => s.regs.h
  | .l => s.regs.l

/-- x[i] <- v (R8). -/
def State.setReg (s : State) (r : Reg) (v : Byte) : State :=
  match r with
  | .a => { s with regs.a := v }
  | .b => { s with regs.b := v }
  | .c => { s with regs.c := v }
  | .d => { s with regs.d := v }
  | .e => { s with regs.e := v }
  | .h => { s with regs.h := v }
  | .l => { s with regs.l := v }

/-- rp[j] (R8): a pair aliases its two registers, the fourth is SP. -/
def State.pair (s : State) : Pair → Word
  | .bc => joinBytes s.regs.b s.regs.c
  | .de => joinBytes s.regs.d s.regs.e
  | .hl => joinBytes s.regs.h s.regs.l
  | .sp => s.sp

/-- rp[j] <- v (R8): both halves are written. -/
def State.setPair (s : State) (p : Pair) (v : Word) : State :=
  match p with
  | .bc => { s with regs.b := highByte v, regs.c := lowByte v }
  | .de => { s with regs.d := highByte v, regs.e := lowByte v }
  | .hl => { s with regs.h := highByte v, regs.l := lowByte v }
  | .sp => { s with sp := v }

/-- SP <- v. -/
def State.setSp (s : State) (v : Word) : State := { s with sp := v }

/-- pc <- v. -/
def State.setPc (s : State) (v : Word) : State := { s with pc := v }

/-- All five flags are replaced. -/
def State.setFlags (s : State) (f : Flags) : State := { s with flags := f }

/-- CY <- b, the other four flags kept. -/
def State.setCy (s : State) (b : Bool) : State := { s with flags.cy := b }

/-- The interrupt cells are replaced. -/
def State.setIrq (s : State) (q : Interrupts) : State := { s with irq := q }

/-! ### The memory's contents (20_memory.md R60, R64) -/

/-- What a memory byte that nothing has written reads as: no source gives a value (R64, R321, U9). DESIGN CHOICE 0x00 (log 7),
unsafe: a program must write a byte before it relies on it. -/
def unlistedByte : Byte := 0x00

/-- The content of one address. -/
def Memory.read : Memory → Nat → Byte
  | [], _ => unlistedByte
  | (k, v) :: m, a => if a = k then v else Memory.read m a

/-- List `a` with the byte `v`, in its place. -/
def Memory.put (a : Nat) (v : Byte) : Memory → Memory
  | [] => [(a, v)]
  | (k, w) :: m => if a < k then (a, v) :: (k, w) :: m else if a = k then (a, v) :: m else (k, w) :: Memory.put a v m

/-- Take `a` off the list. -/
def Memory.drop (a : Nat) : Memory → Memory
  | [] => []
  | (k, w) :: m => if a = k then m else (k, w) :: Memory.drop a m

/-- The memory after a byte is written: canonical form is kept, the unlisted byte's value is not listed. -/
def Memory.write (m : Memory) (a : Nat) (v : Byte) : Memory :=
  if v = unlistedByte then m.drop a else m.put a v

/-- Canonical from the address `lo` on: addresses strictly rising and below 65,536, no entry equal to the unlisted byte. -/
def Memory.wfFrom (lo : Nat) : Memory → Bool
  | [] => true
  | (k, v) :: m => decide (lo ≤ k) && decide (k < 65536) && decide (v ≠ unlistedByte) && Memory.wfFrom (k + 1) m

/-- The memory is in its one canonical form. -/
def Memory.wf (m : Memory) : Bool := m.wfFrom 0

/-! ### The memory map (parameter MEMMAP, R64) -/

/-- The address lies in the region. -/
def regionHolds (r : Region) (a : Nat) : Bool := decide (r.base ≤ a) && decide (a < r.base + r.size)

/-- The kind the map gives an address: the first region that holds it; an address in no region is RAM. -/
def kindIn : List Region → Nat → MemKind
  | [], _ => .ram
  | r :: rest, a => if regionHolds r a then r.kind else kindIn rest a

/-- What the platform has put at an address. -/
def State.kindAt (s : State) (a : Word) : MemKind := kindIn s.env.params.memMap a.toNat

/-! ### Bus accesses (00_scope.md R9, R10; 20_memory.md R64, R66, R76) -/

/-- The environment sees one more access. -/
def State.note (s : State) (e : BusEvent) : State := { s with env.bus := e :: s.env.bus }

/-- SOD <- level. SOD drives its output line continuously, so each change of it is an output event (60_exceptions.md R303);
writing the level that SOD already has is none. -/
def State.driveSod (s : State) (level : Bool) : State :=
  { s with sod := level, env.bus := if level = s.sod then s.env.bus else .serialOut level :: s.env.bus }

/-- One more draw has been made (00_scope.md R12). -/
def State.countDraw (s : State) : State := { s with env.draws := s.env.draws + 1 }

/-- The content of the memory cell at an address, whatever the map says of it. -/
def State.byteAt (s : State) (a : Word) : Byte := s.mem.read a.toNat

/-- The byte MemRead(a, 1) returns in this state (R9): the content of RAM or ROM, a free value where nothing is (R64, U3). -/
def State.peek (s : State) (a : Word) : Byte :=
  match s.kindAt a with
  | .unpopulated => Config.openBus s.env.draws
  | _ => s.byteAt a

/-- The draws after a read of `a`: one more where the byte was a free value. -/
def State.drawIfOpen (s : State) (a : Word) : State :=
  match s.kindAt a with
  | .unpopulated => s.countDraw
  | _ => s

/-- The state after MemRead(a, 1), whose value is `peek a`. -/
def State.noteRead (s : State) (a : Word) : State := (s.drawIfOpen a).note (.memRead a (s.peek a))

/-- The state after the opcode fetch at `a` (machine cycle F or S, R93). -/
def State.noteFetch (s : State) (a : Word) : State := (s.drawIfOpen a).note (.fetch a (s.peek a))

/-- The content of memory after a write of `v` at `a`: RAM takes it; ROM keeps its fixed content and an unpopulated address
has none, so nothing changes there (R64; DESIGN CHOICE, log 8). -/
def State.store (s : State) (a : Word) (v : Byte) : State :=
  match s.kindAt a with
  | .ram => { s with mem := s.mem.write a.toNat v }
  | _ => s

/-- MemWrite(a, 1, v) (R9). -/
def State.writeByte (s : State) (a : Word) (v : Byte) : State := (s.store a v).note (.memWrite a v)

/-- What the environment supplies in this step (10_state.md R43). -/
def State.now (s : State) : Inputs := s.env.inputs.headD Inputs.idle

/-- IoRead(port) (R10, R66): the scheduled byte, else a free value. -/
def State.ioValue (s : State) (port : Byte) : Byte := s.now.portByte.getD (Config.portByte s.env.draws port)

/-- The state after IoRead(port), whose value is `ioValue port`. -/
def State.noteIoRead (s : State) (port : Byte) : State := (s.note (.ioRead port (s.ioValue port))).countDraw

/-! ### The stack (10_state.md R23, 20_memory.md R72) -/

/-- Push a 16-bit value: the high-order byte at SP-1, then the low-order byte at SP-2, then SP <- SP - 2. -/
def State.push16 (s : State) (v : Word) : State :=
  ((s.writeByte (s.sp - 1) (highByte v)).writeByte (s.sp - 2) (lowByte v)).setSp (s.sp - 2)

/-- The low-order byte a pop reads, at SP. -/
def State.popLow (s : State) : Byte := s.peek s.sp

/-- The high-order byte a pop reads, at SP+1, after the read at SP. -/
def State.popHigh (s : State) : Byte := (s.noteRead s.sp).peek (s.sp + 1)

/-- The state after both stack reads, SP not yet moved. -/
def State.readStack (s : State) : State := (s.noteRead s.sp).noteRead (s.sp + 1)

/-- The state after a pop of `popHigh : popLow`: both reads, then SP <- SP + 2. -/
def State.dropStack (s : State) : State := s.readStack.setSp (s.sp + 2)

/-- The actions of CALL (44_branch.md R220): push pc, go to the target. -/
def State.callTo (s : State) (target : Word) : State := (s.push16 s.pc).setPc target

/-- The actions of RET (R229), which is also the return from an interrupt routine (60_exceptions.md R293): pop pc. -/
def State.return16 (s : State) : State := s.dropStack.setPc (joinBytes s.popHigh s.popLow)

/-- The actions of RST n (R238): push pc, go to 8 * NNN. -/
def State.restart (s : State) (n : BitVec 3) : State := s.callTo (n.setWidth 16 * 8)

/-! ### Interrupts (60_exceptions.md) -/

/-- Whether a source is acceptable at this boundary (R286). PRESUMED in part: TRAP's independence of IE (log 18). -/
def State.acceptable (s : State) : Source → Bool
  | .trap => s.env.trapReq
  | .rst75 => s.irq.i75 && !s.irq.m75 && s.irq.ie && !s.irq.eiPending
  | .rst65 => s.now.pin65 && !s.irq.m65 && s.irq.ie && !s.irq.eiPending
  | .rst55 => s.now.pin55 && !s.irq.m55 && s.irq.ie && !s.irq.eiPending
  | .intr => s.now.intr && s.irq.ie && !s.irq.eiPending

/-- The source taken at this boundary: the acceptable one of highest priority (R290). -/
def State.winner (s : State) : Option Source := s.env.params.priority.find? s.acceptable

/-- VEC[src] (R288); INTR is not vectored. -/
def vectorOf (p : Params) : Source → Option Word
  | .trap => some p.vecTrap
  | .rst75 => some p.vecRst75
  | .rst65 => some p.vecRst65
  | .rst55 => some p.vecRst55
  | .intr => none

/-- IE before a TRAP, as the entry saves it (R289): a free value directly after an EI (U6; log 12). -/
def State.enableBeforeTrap (s : State) : Bool := if s.irq.eiPending then Config.trapEnable s.env.draws else s.irq.ie

/-- The cells an interrupt entry changes before pc is pushed (R289). TRAP saves IE, marks the next RIM, and its request is
consumed; RST 7.5 clears its latch; every entry leaves the halt state and resets IE and EI_PENDING. -/
def State.beginEntry (s : State) (src : Source) : State :=
  match src with
  | .trap =>
    { s with
      halted := false
      irq := { s.irq with ie := false, eiPending := false, trapTaken := true, ieBeforeTrap := s.enableBeforeTrap }
      env.trapReq := false
      env.draws := s.env.draws + 1 }
  | .rst75 => { s with halted := false, irq := { s.irq with ie := false, eiPending := false, i75 := false } }
  | _ => { s with halted := false, irq := { s.irq with ie := false, eiPending := false } }

/-- The INTR acknowledge (R292): RST n or CALL is executed with pc not advanced over it; EI and DI are prohibited (R331) and
no other byte is described, so those are refused. PRESUMED: the spec's reading D19 (log 20); safe. -/
def State.acknowledge (s : State) : Outcome :=
  let b1 := s.now.inta1
  let s1 := s.note (.inta b1)
  if b1 &&& 0xC7 = 0xC7 then .next (s1.restart (fieldDDD b1))
  else if b1 = 0xCD then
    .next (((s1.note (.inta s.now.inta2)).note (.inta s.now.inta3)).callTo (joinBytes s.now.inta3 s.now.inta2))
  else if b1 = 0xFB ∨ b1 = 0xF3 then .refused (.prohibitedAcknowledge b1)
  else .refused (.undescribedAcknowledge b1)

/-- take(src) (R289), the one way this machine takes an exception: the entry's cells, then pc pushed and the vector loaded,
or, for INTR, the acknowledge. PRESUMED: the entry sequence is general knowledge in the spec (D8; log 18), unsafe. -/
def State.takeInterrupt (s : State) (src : Source) : Outcome :=
  match vectorOf s.env.params src with
  | some v => .next ((s.beginEntry src).callTo v)
  | none => (s.beginEntry src).acknowledge

/-- RESET IN (70_reset_and_hazards.md R320): the masks set, SOD, I75, IE, EI_PENDING, TRAP_TAKEN and HALTED cleared, pc at
RESET_PC; registers, SP, flags and IE_BEFORE_TRAP take free values (R321; log 6); memory is unchanged. Where SOD was 1 its
clearing is an output event (60_exceptions.md R303). -/
def State.resetEvent (s : State) : State :=
  let n := s.env.draws
  let f := Config.resetFlags n
  { s.driveSod false with
    regs := { a := Config.resetReg n .a, b := Config.resetReg n .b, c := Config.resetReg n .c, d := Config.resetReg n .d,
              e := Config.resetReg n .e, h := Config.resetReg n .h, l := Config.resetReg n .l }
    sp := Config.resetSp n
    pc := s.env.params.resetPc
    flags := { z := f.getLsbD 4, s := f.getLsbD 3, p := f.getLsbD 2, cy := f.getLsbD 1, ac := f.getLsbD 0 }
    irq := { ie := false, eiPending := false, m55 := true, m65 := true, m75 := true, i75 := false,
             trapTaken := false, ieBeforeTrap := Config.resetIeBeforeTrap n }
    halted := false
    env.draws := n + 1 }

/-! ### The instruction cycle (60_exceptions.md R282, R283; 30_encoding.md R93) -/

/-- Edges on RST 7.5 set I75 and TRAP request events become present, before the boundary that follows them (R282). -/
def State.latchRequests (s : State) : State :=
  { s with
    irq.i75 := s.irq.i75 || s.now.rst75Edge
    env.trapReq := s.env.trapReq || s.now.trap }

/-- The step's inputs have been used. -/
def State.advanceInputs (s : State) : State := { s with env.inputs := s.env.inputs.tail }

/-- The condition of a conditional jump, call or return. -/
def branchCond : Instr → Option Cond
  | .jnz _ | .cnz _ | .rnz => some .nz
  | .jz _ | .cz _ | .rz => some .z
  | .jnc _ | .cnc _ | .rnc => some .nc
  | .jc _ | .cc _ | .rc => some .c
  | .jpo _ | .cpo _ | .rpo => some .po
  | .jpe _ | .cpe _ | .rpe => some .pe
  | .jp _ | .cp _ | .rp => some .p
  | .jm _ | .cm _ | .rm => some .m
  | _ => none

/-- The instruction is no conditional branch, or its condition holds (R210). -/
def State.taken (s : State) (i : Instr) : Bool :=
  match branchCond i with
  | some cond => s.flags.holds cond
  | none => true

/-- The opcode fetch: read at pc, pc <- pc + 1 (R93, machine cycle F or S). -/
def State.fetchOpcode (s : State) : State := (s.noteFetch s.pc).setPc (s.pc + 1)

/-- The read of an operand byte: read at pc, pc <- pc + 1 (R93, machine cycle R). -/
def State.fetchOperand (s : State) : State := (s.noteRead s.pc).setPc (s.pc + 1)

/-- Byte 3 of a conditional jump or call whose condition is false is not read, pc still passes it (R93, R240, R241). -/
def State.skipOperand (s : State) : State := s.setPc (s.pc + 1)

/-- Instruction fetch (R93): the instruction at pc, and the state its rule starts from, pc at the next instruction address
(00_scope.md R13). -/
def State.fetch (s : State) : Instr × State :=
  let op := s.peek s.pc
  let s1 := s.fetchOpcode
  match opLength op with
  | 1 => (decodeOp op 0 0, s1)
  | 2 => (decodeOp op (s1.peek s1.pc) 0, s1.fetchOperand)
  | _ =>
    let s2 := s1.fetchOperand
    let i := decodeOp op (s1.peek s1.pc) (s2.peek s2.pc)
    (i, if s2.taken i then s2.fetchOperand else s2.skipOperand)

/-- The instruction is EI or DI, which rule R283 treats apart. -/
def isEiOrDi : Instr → Bool
  | .ei | .di => true
  | _ => false

/-- The delayed enable (R283): an instruction that began with EI_PENDING = 1 and is neither EI nor DI ends with IE <- 1 and
EI_PENDING <- 0. DEDUCED: the spec's reading D18 (log 21), unsafe. -/
def State.settleEnable (s : State) (pend : Bool) (i : Instr) : State :=
  if pend && !isEiOrDi i then { s with irq.ie := true, irq.eiPending := false } else s

/-! ### Placing an instruction where the step fetches it -/

/-- The same inputs with no request in them. -/
def Inputs.withoutRequests (n : Inputs) : Inputs :=
  { n with resetIn := false, trap := false, rst75Edge := false, pin65 := false, pin55 := false, intr := false }

/-- Nothing but an instruction can happen at the next boundary: not halted, no request in the step's inputs, no TRAP present,
no RST 7.5 that would be accepted. -/
def State.readyToFetch (s : State) : State :=
  { s with
    halted := false
    irq.i75 := s.irq.i75 && !s.acceptable .rst75
    env.trapReq := false
    env.inputs := match s.env.inputs with
      | [] => []
      | n :: rest => n.withoutRequests :: rest }

/-- Put a byte at an address from outside the machine; an unpopulated address becomes a RAM byte. -/
def State.place (s : State) (a : Word) (v : Byte) : State :=
  match s.kindAt a with
  | .unpopulated =>
    { s with
      mem := s.mem.write a.toNat v
      env.params.memMap := { base := a.toNat, size := 1, kind := .ram } :: s.env.params.memMap }
  | _ => { s with mem := s.mem.write a.toNat v }

/-- Put bytes at consecutive addresses, modulo 2^16. -/
def State.placeAll (s : State) (a : Word) : List Byte → State
  | [] => s
  | v :: rest => (s.place a v).placeAll (a + 1) rest

end Sys2Proof.Machine
end

