-- ==== Sys2Proof/Machine/Operands.lean ====
section
/-! DEFINITION. The operand forms of spec 20_memory.md R63 (register, immediate, direct, register indirect) and the shared
actions on them that the instruction meanings are written with. Each action starts after the fetch (00_scope.md R13). -/

namespace Sys2Proof.Machine

/-! ### Where operands are -/

/-- The address of the M operand, H:L (R63). -/
def State.addrM (s : State) : Word := s.pair .hl

/-- The byte a read of M returns. -/
def State.valueM (s : State) : Byte := s.peek s.addrM

/-- The state after the read of M. -/
def State.afterReadM (s : State) : State := s.noteRead s.addrM

/-- The pair LDAX or STAX names, as a register pair (30_encoding.md R97). -/
def pairOfIndex : IndexPair → Pair
  | .bc => .bc
  | .de => .de

/-- The pair PUSH or POP names, as a register pair (30_encoding.md R97). -/
def pairOfStack : StackPair → Pair
  | .bc => .bc
  | .de => .de
  | .hl => .hl

/-! ### Actions on the accumulator and the flags -/

/-- A <- result, all five flags from the result. -/
def State.accumulate (s : State) (out : AluOut) : State := (s.setReg .a out.res).setFlags out.flags

/-- A + v + carry into A (R153 to R158). -/
def State.addToA (s : State) (v : Byte) (cin : Bool) : State := s.accumulate (add8 s.regs.a v cin)

/-- A - v - borrow into A (R159 to R164). -/
def State.subFromA (s : State) (v : Byte) (bin : Bool) : State := s.accumulate (sub8 s.regs.a v bin)

/-- The flags of A - v, A not written (R190 to R192). -/
def State.compareA (s : State) (v : Byte) : State := s.setFlags (sub8 s.regs.a v false).flags

/-- A AND v into A (R181 to R183). -/
def State.andIntoA (s : State) (v : Byte) : State := (s.setReg .a (s.regs.a &&& v)).setFlags (andFlags (s.regs.a &&& v))

/-- A exclusive-OR v into A (R184 to R186). -/
def State.xorIntoA (s : State) (v : Byte) : State := (s.setReg .a (s.regs.a ^^^ v)).setFlags (orFlags (s.regs.a ^^^ v))

/-- A inclusive-OR v into A (R187 to R189). -/
def State.orIntoA (s : State) (v : Byte) : State := (s.setReg .a (s.regs.a ||| v)).setFlags (orFlags (s.regs.a ||| v))

/-- The value and flags of an increment (R165, R166). -/
def increment (v : Byte) : AluOut := add8 v 0x01 false

/-- The value and flags of a decrement (R167, R168). -/
def decrement (v : Byte) : AluOut := sub8 v 0x01 false

/-- A register and the flags but CY are replaced (R165, R167). -/
def State.stepReg (s : State) (r : Reg) (out : AluOut) : State := (s.setReg r out.res).setFlags (out.flagsKeepCy s.flags)

/-- M, after it has been read, and the flags but CY are replaced (R166, R168). -/
def State.stepM (s : State) (out : AluOut) : State := (s.writeByte s.addrM out.res).setFlags (out.flagsKeepCy s.flags)

/-- A and CY are replaced, the other flags kept (R193 to R196). -/
def State.rotateA (s : State) (r : Rotated) : State := (s.setReg .a r.acc).setCy r.cy

/-! ### Conditional transfers (44_branch.md R240 to R242) -/

/-- A conditional jump (R240). -/
def State.jumpIf (s : State) (cond : Cond) (target : Word) : State := if s.flags.holds cond then s.setPc target else s

/-- A conditional call (R241). -/
def State.callIf (s : State) (cond : Cond) (target : Word) : State := if s.flags.holds cond then s.callTo target else s

/-- A conditional return (R242). -/
def State.returnIf (s : State) (cond : Cond) : State := if s.flags.holds cond then s.return16 else s

/-! ### The RIM and SIM images (45_stack_io_control.md R263, R264) -/

/-- Bit 3 of a RIM: the saved enable in the first RIM after a TRAP, a free value directly after an EI (U5), else IE. -/
def State.rimEnableBit (s : State) : Bool :=
  if s.irq.trapTaken then s.irq.ieBeforeTrap
  else if s.irq.eiPending then Config.rimEnable s.env.draws
  else s.irq.ie

/-- SidRead() (10_state.md R45): the scheduled level, else a free value. -/
def State.serialLevel (s : State) : Bool := s.now.serialIn.getD (Config.serialIn s.env.draws)

/-- Pin65() as a RIM reads it (R40): the scheduled level, else a free value. -/
def State.rimLevel65 (s : State) : Bool := s.now.rimPin65.getD (Config.rimPin65 s.env.draws)

/-- Pin55() as a RIM reads it (R40): the scheduled level, else a free value. -/
def State.rimLevel55 (s : State) : Bool := s.now.rimPin55.getD (Config.rimPin55 s.env.draws)

/-- The byte RIM loads, bit 7 first. Bits 3 and 6 are the source's places; the others are PRESUMED (the spec's D15; log 27). -/
def State.rimByte (s : State) : Byte :=
  BitVec.ofBool s.serialLevel ++ BitVec.ofBool s.irq.i75 ++ BitVec.ofBool s.rimLevel65 ++ BitVec.ofBool s.rimLevel55 ++
    BitVec.ofBool s.rimEnableBit ++ BitVec.ofBool s.irq.m75 ++ BitVec.ofBool s.irq.m65 ++ BitVec.ofBool s.irq.m55

/-- The interrupt cells after a SIM with this accumulator: bit 3 loads the masks, bit 4 resets I75; bit 5 has no effect
(DEDUCED: the spec's D16; log 28). -/
def simIrq (q : Interrupts) (acc : Byte) : Interrupts :=
  { q with
    m55 := if acc.getLsbD 3 then acc.getLsbD 0 else q.m55
    m65 := if acc.getLsbD 3 then acc.getLsbD 1 else q.m65
    m75 := if acc.getLsbD 3 then acc.getLsbD 2 else q.m75
    i75 := if acc.getLsbD 4 then false else q.i75 }

/-- SOD after a SIM with this accumulator: bit 6 loads it from bit 7. -/
def simSod (sod : Bool) (acc : Byte) : Bool := if acc.getLsbD 6 then acc.getLsbD 7 else sod

end Sys2Proof.Machine
end

