-- ==== Sys2Proof/Machine/Arithmetic.lean ====
section
/-! DEFINITION. The arithmetic group (spec 42_arithmetic.md R153 to R172). -/

namespace Sys2Proof.Machine

/-- ADD r (R153). -/
def execAddR (src : Reg) (s : State) : Outcome := .next (s.addToA (s.reg src) false)

/-- ADD M (R154). -/
def execAddM (s : State) : Outcome := .next (s.afterReadM.addToA s.valueM false)

/-- ADI data (R155). -/
def execAdi (data : Byte) (s : State) : Outcome := .next (s.addToA data false)

/-- ADC r (R156). -/
def execAdcR (src : Reg) (s : State) : Outcome := .next (s.addToA (s.reg src) s.flags.cy)

/-- ADC M (R157). -/
def execAdcM (s : State) : Outcome := .next (s.afterReadM.addToA s.valueM s.flags.cy)

/-- ACI data (R158). -/
def execAci (data : Byte) (s : State) : Outcome := .next (s.addToA data s.flags.cy)

/-- SUB r (R159). -/
def execSubR (src : Reg) (s : State) : Outcome := .next (s.subFromA (s.reg src) false)

/-- SUB M (R160). -/
def execSubM (s : State) : Outcome := .next (s.afterReadM.subFromA s.valueM false)

/-- SUI data (R161). -/
def execSui (data : Byte) (s : State) : Outcome := .next (s.subFromA data false)

/-- SBB r (R162). -/
def execSbbR (src : Reg) (s : State) : Outcome := .next (s.subFromA (s.reg src) s.flags.cy)

/-- SBB M (R163). -/
def execSbbM (s : State) : Outcome := .next (s.afterReadM.subFromA s.valueM s.flags.cy)

/-- SBI data (R164). -/
def execSbi (data : Byte) (s : State) : Outcome := .next (s.subFromA data s.flags.cy)

/-- INR r (R165). -/
def execInrR (dst : Reg) (s : State) : Outcome := .next (s.stepReg dst (increment (s.reg dst)))

/-- INR M (R166): read, then write at the same address. -/
def execInrM (s : State) : Outcome := .next (s.afterReadM.stepM (increment s.valueM))

/-- DCR r (R167). -/
def execDcrR (dst : Reg) (s : State) : Outcome := .next (s.stepReg dst (decrement (s.reg dst)))

/-- DCR M (R168): read, then write at the same address. -/
def execDcrM (s : State) : Outcome := .next (s.afterReadM.stepM (decrement s.valueM))

/-- INX rp (R169). -/
def execInx (rp : Pair) (s : State) : Outcome := .next (s.setPair rp (s.pair rp + 1))

/-- DCX rp (R170). -/
def execDcx (rp : Pair) (s : State) : Outcome := .next (s.setPair rp (s.pair rp - 1))

/-- DAD rp (R171): H:L from the low 16 bits of the 17-bit sum, CY from bit 16. -/
def execDad (rp : Pair) (s : State) : Outcome :=
  let sum := dadSum (s.pair .hl) (s.pair rp)
  .next ((s.setPair .hl (sum.extractLsb' 0 16)).setCy (sum.getLsbD 16))

/-- DAA (R172). -/
def execDaa (s : State) : Outcome := .next (s.accumulate (daaOut s.regs.a s.flags.cy s.flags.ac))

end Sys2Proof.Machine
end

