-- ==== Sys2Proof/Machine/Branch.lean ====
section
/-! DEFINITION. The branch group (spec 44_branch.md R211 to R242): no flag is written (R210). -/

namespace Sys2Proof.Machine

/-- JMP addr (R211). -/
def execJmp (addr : Word) (s : State) : Outcome := .next (s.setPc addr)

/-- JNZ addr: jump on no zero (R212, R240). -/
def execJnz (addr : Word) (s : State) : Outcome := .next (s.jumpIf .nz addr)

/-- JZ addr: jump on zero (R213, R240). -/
def execJz (addr : Word) (s : State) : Outcome := .next (s.jumpIf .z addr)

/-- JNC addr: jump on no carry (R214, R240). -/
def execJnc (addr : Word) (s : State) : Outcome := .next (s.jumpIf .nc addr)

/-- JC addr: jump on carry (R215, R240). -/
def execJc (addr : Word) (s : State) : Outcome := .next (s.jumpIf .c addr)

/-- JPO addr: jump on parity odd (R216, R240). -/
def execJpo (addr : Word) (s : State) : Outcome := .next (s.jumpIf .po addr)

/-- JPE addr: jump on parity even (R217, R240). -/
def execJpe (addr : Word) (s : State) : Outcome := .next (s.jumpIf .pe addr)

/-- JP addr: jump on positive (R218, R240). -/
def execJp (addr : Word) (s : State) : Outcome := .next (s.jumpIf .p addr)

/-- JM addr: jump on minus (R219, R240). -/
def execJm (addr : Word) (s : State) : Outcome := .next (s.jumpIf .m addr)

/-- CALL addr (R220). -/
def execCall (addr : Word) (s : State) : Outcome := .next (s.callTo addr)

/-- CNZ addr: call on no zero (R221, R241). -/
def execCnz (addr : Word) (s : State) : Outcome := .next (s.callIf .nz addr)

/-- CZ addr: call on zero (R222, R241). -/
def execCz (addr : Word) (s : State) : Outcome := .next (s.callIf .z addr)

/-- CNC addr: call on no carry (R223, R241). -/
def execCnc (addr : Word) (s : State) : Outcome := .next (s.callIf .nc addr)

/-- CC addr: call on carry (R224, R241). -/
def execCc (addr : Word) (s : State) : Outcome := .next (s.callIf .c addr)

/-- CPO addr: call on parity odd (R225, R241). -/
def execCpo (addr : Word) (s : State) : Outcome := .next (s.callIf .po addr)

/-- CPE addr: call on parity even (R226, R241). -/
def execCpe (addr : Word) (s : State) : Outcome := .next (s.callIf .pe addr)

/-- CP addr: call on positive (R227, R241). -/
def execCp (addr : Word) (s : State) : Outcome := .next (s.callIf .p addr)

/-- CM addr: call on minus (R228, R241). -/
def execCm (addr : Word) (s : State) : Outcome := .next (s.callIf .m addr)

/-- RET (R229). -/
def execRet (s : State) : Outcome := .next s.return16

/-- RNZ: return on no zero (R230, R242). -/
def execRnz (s : State) : Outcome := .next (s.returnIf .nz)

/-- RZ: return on zero (R231, R242). -/
def execRz (s : State) : Outcome := .next (s.returnIf .z)

/-- RNC: return on no carry (R232, R242). -/
def execRnc (s : State) : Outcome := .next (s.returnIf .nc)

/-- RC: return on carry (R233, R242). -/
def execRc (s : State) : Outcome := .next (s.returnIf .c)

/-- RPO: return on parity odd (R234, R242). -/
def execRpo (s : State) : Outcome := .next (s.returnIf .po)

/-- RPE: return on parity even (R235, R242). -/
def execRpe (s : State) : Outcome := .next (s.returnIf .pe)

/-- RP: return on positive (R236, R242). -/
def execRp (s : State) : Outcome := .next (s.returnIf .p)

/-- RM: return on minus (R237, R242). -/
def execRm (s : State) : Outcome := .next (s.returnIf .m)

/-- RST n (R238): NNN is the 3-bit binary representation of n. -/
def execRst (n : Nat) (s : State) : Outcome := .next (s.restart (BitVec.ofNat 3 n))

/-- PCHL (R239). -/
def execPchl (s : State) : Outcome := .next (s.setPc (s.pair .hl))

end Sys2Proof.Machine
end

