-- ==== Sys2Proof/Machine/DataTransfer.lean ====
section
/-! DEFINITION. The data transfer group (spec 41_data_transfer.md R131 to R143): no flag and no interrupt cell is touched (R130). -/

namespace Sys2Proof.Machine

/-- MOV r1, r2 (R131). -/
def execMovRR (dst src : Reg) (s : State) : Outcome := .next (s.setReg dst (s.reg src))

/-- MOV r, M (R132). -/
def execMovRM (dst : Reg) (s : State) : Outcome := .next (s.afterReadM.setReg dst s.valueM)

/-- MOV M, r (R133). -/
def execMovMR (src : Reg) (s : State) : Outcome := .next (s.writeByte s.addrM (s.reg src))

/-- MVI r, data (R134). -/
def execMviR (dst : Reg) (data : Byte) (s : State) : Outcome := .next (s.setReg dst data)

/-- MVI M, data (R135). -/
def execMviM (data : Byte) (s : State) : Outcome := .next (s.writeByte s.addrM data)

/-- LXI rp, data 16 (R136). -/
def execLxi (rp : Pair) (data : Word) (s : State) : Outcome := .next (s.setPair rp data)

/-- LDA addr (R137). -/
def execLda (addr : Word) (s : State) : Outcome := .next ((s.noteRead addr).setReg .a (s.peek addr))

/-- STA addr (R138). -/
def execSta (addr : Word) (s : State) : Outcome := .next (s.writeByte addr s.regs.a)

/-- LHLD addr (R139): L from addr, then H from addr + 1. -/
def execLhld (addr : Word) (s : State) : Outcome :=
  let s1 := s.noteRead addr
  .next ((s1.noteRead (addr + 1)).setPair .hl (joinBytes (s1.peek (addr + 1)) (s.peek addr)))

/-- SHLD addr (R140): L to addr, then H to addr + 1. -/
def execShld (addr : Word) (s : State) : Outcome :=
  .next ((s.writeByte addr s.regs.l).writeByte (addr + 1) s.regs.h)

/-- LDAX rp (R141). -/
def execLdax (rp : IndexPair) (s : State) : Outcome :=
  let addr := s.pair (pairOfIndex rp)
  .next ((s.noteRead addr).setReg .a (s.peek addr))

/-- STAX rp (R142). -/
def execStax (rp : IndexPair) (s : State) : Outcome := .next (s.writeByte (s.pair (pairOfIndex rp)) s.regs.a)

/-- XCHG (R143). -/
def execXchg (s : State) : Outcome := .next ((s.setPair .hl (s.pair .de)).setPair .de (s.pair .hl))

end Sys2Proof.Machine
end

