-- ==== Sys2Proof/Machine/Logical.lean ====
section
/-! DEFINITION. The logical group (spec 43_logical.md R181 to R199), the 8085's flags (R180). -/

namespace Sys2Proof.Machine

/-- ANA r (R181). -/
def execAnaR (src : Reg) (s : State) : Outcome := .next (s.andIntoA (s.reg src))

/-- ANA M (R182). -/
def execAnaM (s : State) : Outcome := .next (s.afterReadM.andIntoA s.valueM)

/-- ANI data (R183). -/
def execAni (data : Byte) (s : State) : Outcome := .next (s.andIntoA data)

/-- XRA r (R184). -/
def execXraR (src : Reg) (s : State) : Outcome := .next (s.xorIntoA (s.reg src))

/-- XRA M (R185). -/
def execXraM (s : State) : Outcome := .next (s.afterReadM.xorIntoA s.valueM)

/-- XRI data (R186). -/
def execXri (data : Byte) (s : State) : Outcome := .next (s.xorIntoA data)

/-- ORA r (R187). -/
def execOraR (src : Reg) (s : State) : Outcome := .next (s.orIntoA (s.reg src))

/-- ORA M (R188). -/
def execOraM (s : State) : Outcome := .next (s.afterReadM.orIntoA s.valueM)

/-- ORI data (R189). -/
def execOri (data : Byte) (s : State) : Outcome := .next (s.orIntoA data)

/-- CMP r (R190). -/
def execCmpR (src : Reg) (s : State) : Outcome := .next (s.compareA (s.reg src))

/-- CMP M (R191). -/
def execCmpM (s : State) : Outcome := .next (s.afterReadM.compareA s.valueM)

/-- CPI data (R192). -/
def execCpi (data : Byte) (s : State) : Outcome := .next (s.compareA data)

/-- RLC (R193). -/
def execRlc (s : State) : Outcome := .next (s.rotateA (rotateLeft s.regs.a))

/-- RRC (R194). -/
def execRrc (s : State) : Outcome := .next (s.rotateA (rotateRight s.regs.a))

/-- RAL (R195). -/
def execRal (s : State) : Outcome := .next (s.rotateA (rotateLeftThroughCarry s.regs.a s.flags.cy))

/-- RAR (R196). -/
def execRar (s : State) : Outcome := .next (s.rotateA (rotateRightThroughCarry s.regs.a s.flags.cy))

/-- CMA (R197). -/
def execCma (s : State) : Outcome := .next (s.setReg .a (~~~s.regs.a))

/-- CMC (R198). -/
def execCmc (s : State) : Outcome := .next (s.setCy (!s.flags.cy))

/-- STC (R199). -/
def execStc (s : State) : Outcome := .next (s.setCy true)

end Sys2Proof.Machine
end

