-- ==== Sys2Proof/Machine/StackIo.lean ====
section
/-! DEFINITION. The stack, I/O and machine control group (spec 45_stack_io_control.md R251 to R264). -/

namespace Sys2Proof.Machine

/-- PUSH rp (R251). -/
def execPush (rp : StackPair) (s : State) : Outcome := .next (s.push16 (s.pair (pairOfStack rp)))

/-- PUSH PSW (R252): A at SP-1, the flag word at SP-2; its three X bits are a free value (U1; log 10). -/
def execPushPsw (s : State) : Outcome :=
  .next ((s.push16 (joinBytes s.regs.a (flagWord s.flags (Config.pswX s.env.draws)))).countDraw)

/-- POP rp (R253). -/
def execPop (rp : StackPair) (s : State) : Outcome :=
  .next (s.dropStack.setPair (pairOfStack rp) (joinBytes s.popHigh s.popLow))

/-- POP PSW (R254): the flags from the byte at SP, A from the byte at SP+1. -/
def execPopPsw (s : State) : Outcome := .next ((s.dropStack.setFlags (flagsOfWord s.popLow)).setReg .a s.popHigh)

/-- XTHL (R255): both reads, then L to SP and H to SP+1 (the order of the writes is DEDUCED: the spec's D13; log 26). -/
def execXthl (s : State) : Outcome :=
  .next (((s.readStack.writeByte s.sp s.regs.l).writeByte (s.sp + 1) s.regs.h).setPair .hl (joinBytes s.popHigh s.popLow))

/-- SPHL (R256). -/
def execSphl (s : State) : Outcome := .next (s.setSp (s.pair .hl))

/-- IN port (R257). -/
def execIn (port : Byte) (s : State) : Outcome := .next ((s.noteIoRead port).setReg .a (s.ioValue port))

/-- OUT port (R258): an output event, no machine state changes. -/
def execOut (port : Byte) (s : State) : Outcome := .next (s.note (.ioWrite port s.regs.a))

/-- EI (R259): IE itself is not changed by this instruction. -/
def execEi (s : State) : Outcome := .next (s.setIrq { s.irq with eiPending := true })

/-- DI (R260). -/
def execDi (s : State) : Outcome := .next (s.setIrq { s.irq with ie := false, eiPending := false })

/-- HLT (R261): registers and flags are unaffected (DEDUCED: the spec's D17; log 22). -/
def execHlt (s : State) : Outcome := .next { s with halted := true }

/-- NOP (R262). -/
def execNop (s : State) : Outcome := .next s

/-- RIM (R263): A from the interrupt cells and the lines; TRAP_TAKEN is cleared. -/
def execRim (s : State) : Outcome :=
  .next ((s.setReg .a s.rimByte).setIrq { s.irq with trapTaken := false }).countDraw

/-- SIM (R264): masks, RST 7.5 latch and SOD as the accumulator says; a change of SOD is an output event (60_exceptions.md
R303). -/
def execSim (s : State) : Outcome :=
  .next ((s.setIrq (simIrq s.irq s.regs.a)).driveSod (simSod s.sod s.regs.a))

end Sys2Proof.Machine
end

