-- ==== Sys2Proof/Machine/Undefined.lean ====
section
/-! DEFINITION. The ten undefined first bytes (spec 30_encoding.md R118): no source gives them an effect, a length or a trap, and the
spec has the model refuse them (92_eei_decisions.md D5; log 29), safe. -/

namespace Sys2Proof.Machine

/-- refuse(undefined_opcode) (R118). -/
def refuseUndefined (opcode : Byte) (_ : State) : Outcome := .refused (.undefinedOpcode opcode)

/-- First byte 0x08 (R118). -/
def execUndef08 (s : State) : Outcome := refuseUndefined 0x08 s

/-- First byte 0x10 (R118). -/
def execUndef10 (s : State) : Outcome := refuseUndefined 0x10 s

/-- First byte 0x18 (R118). -/
def execUndef18 (s : State) : Outcome := refuseUndefined 0x18 s

/-- First byte 0x28 (R118). -/
def execUndef28 (s : State) : Outcome := refuseUndefined 0x28 s

/-- First byte 0x38 (R118). -/
def execUndef38 (s : State) : Outcome := refuseUndefined 0x38 s

/-- First byte 0xCB (R118). -/
def execUndefCB (s : State) : Outcome := refuseUndefined 0xCB s

/-- First byte 0xD9 (R118). -/
def execUndefD9 (s : State) : Outcome := refuseUndefined 0xD9 s

/-- First byte 0xDD (R118). -/
def execUndefDD (s : State) : Outcome := refuseUndefined 0xDD s

/-- First byte 0xED (R118). -/
def execUndefED (s : State) : Outcome := refuseUndefined 0xED s

/-- First byte 0xFD (R118). -/
def execUndefFD (s : State) : Outcome := refuseUndefined 0xFD s

end Sys2Proof.Machine
end

