-- ==== Sys2Proof/Machine/Step.lean ====
section
/-! DEFINITION. One instruction boundary of the machine (spec 60_exceptions.md R282), and how a table word is placed where the
next step fetches it. -/

namespace Sys2Proof.Machine

/-- Run the instruction at pc: fetch (30_encoding.md R93), its rule, the delayed enable (R283). -/
def State.runInstruction (s : State) : Host.Outcome State Fault Refusal :=
  match exec s.fetch.1 s.fetch.2 with
  | .next t => .next (t.settleEnable s.irq.eiPending s.fetch.1)
  | .fault f => .fault f
  | .refused r => .refused r

/-- What happens at a boundary whose requests have been latched (R282): RESET IN, else the acceptable source of highest
priority, else nothing while halted, else the instruction at pc. -/
def State.boundary (s : State) : Host.Outcome State Fault Refusal :=
  if s.now.resetIn then .next s.resetEvent
  else match s.winner with
    | some src => s.takeInterrupt src
    | none => if s.halted then .next s else s.runInstruction

/-- The top-level step of the machine (R282): requests are latched, the boundary acts, the step's inputs are used up. -/
def step (s : State) : Host.Outcome State Fault Refusal :=
  match s.latchRequests.boundary with
  | .next t => .next t.advanceInputs
  | .fault f => .fault f
  | .refused r => .refused r

/-- `s` with the table word's bytes in memory at pc, and the very next step made one that fetches (log 32). -/
def State.withFetchWord (s : State) (nbits w : Nat) : State := s.readyToFetch.placeAll s.pc (tableBytes nbits w)

end Sys2Proof.Machine
end

