-- ==== Sys2Proof/Machine/Timing.lean ====
section
/-! DEFINITION. Table 5-1 for the 8085A (spec 70_reset_and_hazards.md R340, R341): the machine cycles and the state count of every
instruction. Information only: no rule of the machine uses it and State holds no clock (log 33). The bus accesses of a step
follow these cycles (20_memory.md R71). -/

namespace Sys2Proof.Machine

/-- The machine cycles of Table 5-1 (R341). -/
inductive Cycle where
  /-- F, four clock period instruction fetch. -/
  | f
  /-- S, six clock period instruction fetch. -/
  | s
  /-- R, memory read. -/
  | r
  /-- W, memory write. -/
  | w
  /-- I, I/O read. -/
  | i
  /-- O, I/O write. -/
  | o
  /-- B, bus idle. -/
  | b
deriving DecidableEq, Repr

/-- The machine cycles of an instruction; `taken` is the truth of its condition, where it has one (R340). The undefined first
bytes have no row. -/
def machineCycles (i : Instr) (taken : Bool) : List Cycle :=
  match i with
  | .movRR _ _ | .xchg | .addR _ | .adcR _ | .subR _ | .sbbR _ | .anaR _ | .xraR _ | .oraR _ | .cmpR _ | .inrR _ | .dcrR _
  | .daa | .rlc | .rrc | .ral | .rar | .cma | .cmc | .stc | .ei | .di | .nop | .rim | .sim => [.f]
  | .inx _ | .dcx _ | .pchl | .sphl => [.s]
  | .dad _ => [.f, .b, .b]
  | .hlt => [.f, .b]
  | .movRM _ | .addM | .adcM | .subM | .sbbM | .anaM | .xraM | .oraM | .cmpM | .mviR _ _ | .adi _ | .aci _ | .sui _ | .sbi _
  | .ani _ | .xri _ | .ori _ | .cpi _ | .ldax _ => [.f, .r]
  | .movMR _ | .stax _ => [.f, .w]
  | .mviM _ | .inrM | .dcrM => [.f, .r, .w]
  | .lxi _ _ | .jmp _ | .pop _ | .popPsw | .ret => [.f, .r, .r]
  | .jnz _ | .jz _ | .jnc _ | .jc _ | .jpo _ | .jpe _ | .jp _ | .jm _ => if taken then [.f, .r, .r] else [.f, .r]
  | .lda _ => [.f, .r, .r, .r]
  | .sta _ => [.f, .r, .r, .w]
  | .lhld _ => [.f, .r, .r, .r, .r]
  | .shld _ | .xthl => [.f, .r, .r, .w, .w]
  | .push _ | .pushPsw | .rst _ => [.s, .w, .w]
  | .call _ => [.s, .r, .r, .w, .w]
  | .cnz _ | .cz _ | .cnc _ | .cc _ | .cpo _ | .cpe _ | .cp _ | .cm _ => if taken then [.s, .r, .r, .w, .w] else [.s, .r]
  | .rnz | .rz | .rnc | .rc | .rpo | .rpe | .rp | .rm => if taken then [.s, .r, .r] else [.s]
  | .inPort _ => [.f, .r, .i]
  | .outPort _ => [.f, .r, .o]
  | .undef08 | .undef10 | .undef18 | .undef28 | .undef38 | .undefCB | .undefD9 | .undefDD | .undefED | .undefFD => []

/-- The state count Table 5-1 prints for the 8085A (R340). -/
def tStates (i : Instr) (taken : Bool) : Nat :=
  match i with
  | .movRR _ _ | .xchg | .addR _ | .adcR _ | .subR _ | .sbbR _ | .anaR _ | .xraR _ | .oraR _ | .cmpR _ | .inrR _ | .dcrR _
  | .daa | .rlc | .rrc | .ral | .rar | .cma | .cmc | .stc | .ei | .di | .nop | .rim | .sim => 4
  | .hlt => 5
  | .inx _ | .dcx _ | .pchl | .sphl => 6
  | .movRM _ | .movMR _ | .addM | .adcM | .subM | .sbbM | .anaM | .xraM | .oraM | .cmpM | .mviR _ _ | .adi _ | .aci _
  | .sui _ | .sbi _ | .ani _ | .xri _ | .ori _ | .cpi _ | .ldax _ | .stax _ => 7
  | .mviM _ | .inrM | .dcrM | .dad _ | .lxi _ _ | .jmp _ | .pop _ | .popPsw | .ret | .inPort _ | .outPort _ => 10
  | .jnz _ | .jz _ | .jnc _ | .jc _ | .jpo _ | .jpe _ | .jp _ | .jm _ => if taken then 10 else 7
  | .push _ | .pushPsw | .rst _ => 12
  | .rnz | .rz | .rnc | .rc | .rpo | .rpe | .rp | .rm => if taken then 12 else 6
  | .lda _ | .sta _ => 13
  | .lhld _ | .shld _ | .xthl => 16
  | .call _ => 18
  | .cnz _ | .cz _ | .cnc _ | .cc _ | .cpo _ | .cpe _ | .cp _ | .cm _ => if taken then 18 else 9
  | .undef08 | .undef10 | .undef18 | .undef28 | .undef38 | .undefCB | .undefD9 | .undefDD | .undefED | .undefFD => 0

/-- What a machine cycle costs in states: 4 per F, 6 per S, 3 per any other (R341). -/
def Cycle.cost : Cycle → Nat
  | .f => 4
  | .s => 6
  | _ => 3

/-- Whether a bus event is what a machine cycle does on the bus; a bus-idle cycle does nothing there, and no instruction of
the program makes an acknowledge read. -/
def BusEvent.isCycle : BusEvent → Cycle → Bool
  | .fetch _ _, .f => true
  | .fetch _ _, .s => true
  | .memRead _ _, .r => true
  | .memWrite _ _, .w => true
  | .ioRead _ _, .i => true
  | .ioWrite _ _, .o => true
  | _, _ => false

/-- The event is a bus access. A change of the serial output is none: no machine cycle makes it. -/
def BusEvent.isAccess : BusEvent → Bool
  | .serialOut _ => false
  | _ => true

/-- A list of bus events, oldest first, is what a list of machine cycles does on the bus. -/
def followsCycles : List BusEvent → List Cycle → Bool
  | events, .b :: cycles => followsCycles events cycles
  | [], [] => true
  | e :: events, c :: cycles => e.isCycle c && followsCycles events cycles
  | _, _ => false

end Sys2Proof.Machine
end

