-- ==== Sys2Proof/Safety.lean ====
section
/-! DEFINITION. What counts as a good state and a good run, in the words the statements use. -/

namespace Sys2Proof.Machine

/-- INT_PRIORITY names each of the five inputs once (spec 00_scope.md R5: an order among them). -/
def Params.wf (p : Params) : Bool :=
  decide (p.priority.length = 5) && [Source.trap, .rst75, .rst65, .rst55, .intr].all (fun src => p.priority.contains src)

/-- The invariant of the machine: the memory is in its one canonical form and the platform's priority is a total order. -/
def State.Inv (s : State) : Prop := s.mem.wf = true ∧ Params.wf s.env.params = true

/-- No request is present or arrives at the next boundary, so the boundary runs an instruction, or stays halted (R282). -/
def State.Quiet (s : State) : Prop :=
  s.now.resetIn = false ∧ ∀ src, s.latchRequests.acceptable src = false

/-- The address is RAM on this platform (20_memory.md R64). -/
def State.IsRam (s : State) (a : Word) : Prop := s.kindAt a = .ram

/-- The platform has something that holds a byte at the address: RAM or ROM (20_memory.md R64). -/
def State.Populated (s : State) (a : Word) : Prop := s.kindAt a ≠ .unpopulated

/-! ### How the statements speak of an instruction's row in the tables -/

/-- The instruction's bytes are these (lowest address first), they decode to it and nothing is left over, and Table 5-1 gives
it these machine cycles and this state count when its condition, where it has one, has this truth. -/
def RowIs (i : Instr) (taken : Bool) (bytes : List Nat) (cycles : List Cycle) (states : Nat) : Prop :=
  (encode i).map BitVec.toNat = bytes ∧ decode (encode i) = .ok (i, []) ∧ machineCycles i taken = cycles ∧
    tStates i taken = states

/-- The low-order and the high-order byte of a 16-bit operand, as an instruction lays them out. -/
def lowPart (w : Word) : Nat := w.toNat % 256

/-- The high-order byte of a 16-bit operand. -/
def highPart (w : Word) : Nat := w.toNat / 256

/-! ### How the statements speak of the flags, in numbers -/

/-- How many bits of a byte are 1. -/
def onesIn (v : Byte) : Nat := (List.range 8).countP (fun n => v.getLsbD n)

/-- Z, S and P are those of this result (10_state.md R27). -/
def Flags.ZspOf (f : Flags) (res : Byte) : Prop :=
  (f.z = true ↔ res.toNat = 0) ∧ (f.s = true ↔ 128 ≤ res.toNat) ∧ (f.p = true ↔ onesIn res % 2 = 0)

/-- The five flags of the sum x + y + carry (R27, R28, R29). -/
def Flags.OfSum (f : Flags) (x y : Byte) (carry : Bool) : Prop :=
  f.ZspOf (BitVec.ofNat 8 (x.toNat + y.toNat + carry.toNat)) ∧
    (f.cy = true ↔ 256 ≤ x.toNat + y.toNat + carry.toNat) ∧
    (f.ac = true ↔ 16 ≤ x.toNat % 16 + y.toNat % 16 + carry.toNat)

/-- The five flags of the difference x - y - borrow (R27, R28; AC by the spec's reading D2, log 23: 1 when the low-order four
bits do not borrow). -/
def Flags.OfDifference (f : Flags) (x y : Byte) (borrow : Bool) : Prop :=
  f.ZspOf (BitVec.ofNat 8 (x.toNat + 256 - y.toNat - borrow.toNat)) ∧
    (f.cy = true ↔ x.toNat < y.toNat + borrow.toNat) ∧
    (f.ac = true ↔ y.toNat % 16 + borrow.toNat ≤ x.toNat % 16)

/-! ### How the statements speak of memory and the bus -/

/-- Memory after is memory before, but for these bytes: each holds the byte given, where its address is RAM. With an empty list:
every byte of memory reads as before. -/
def State.Stores (s t : State) (cells : List (Word × Byte)) : Prop :=
  (∀ a, a ∉ cells.map Prod.fst → t.byteAt a = s.byteAt a) ∧ ∀ c ∈ cells, s.IsRam c.1 → t.byteAt c.1 = c.2

/-- The environment's side after is the one before with these bus events more, the first made standing first; the draw
counter is not fixed. -/
def State.Sees (s t : State) (events : List BusEvent) : Prop :=
  t.env = { s.env with bus := events.reverse ++ s.env.bus, draws := t.env.draws }

/-- The level an event puts on the serial output line, where it is a change of that line (60_exceptions.md R303). -/
def BusEvent.serialLevel : BusEvent → Option Bool
  | .serialOut level => some level
  | _ => none

/-- A read at `a` returns `v`: the content, where the platform has RAM or ROM there (elsewhere nothing fixes it). -/
def State.ReadsAs (s : State) (a : Word) (v : Byte) : Prop := s.Populated a → v = s.byteAt a

/-- A 16-bit push: SP falls by 2, the high-order byte goes to SP - 1, then the low-order byte to SP - 2, and nowhere else. -/
def State.Pushes (s t : State) (high low : Byte) : Prop :=
  t.sp = s.sp - 2 ∧ s.Stores t [(s.sp - 1, high), (s.sp - 2, low)] ∧
    s.Sees t [.memWrite (s.sp - 1) high, .memWrite (s.sp - 2) low]

/-- A 16-bit pop: the low-order byte is read at SP, then the high-order byte at SP + 1, and SP rises by 2. -/
def State.Pops (s t : State) (high low : Byte) : Prop :=
  t.sp = s.sp + 2 ∧ s.ReadsAs s.sp low ∧ s.ReadsAs (s.sp + 1) high ∧ s.Stores t [] ∧
    s.Sees t [.memRead s.sp low, .memRead (s.sp + 1) high]

/-- The bytes at pc, at pc + 1 and at pc + 2. -/
def State.codeBytes (s : State) : List Byte := [s.byteAt s.pc, s.byteAt (s.pc + 1), s.byteAt (s.pc + 2)]

/-- The memory at pc decodes to this instruction, and the platform has RAM or ROM at each of its bytes. -/
def State.Holds (s : State) (i : Instr) : Prop :=
  (∃ rest, decode s.codeBytes = .ok (i, rest)) ∧
    ∀ k < (encode i).length, s.Populated (s.pc + BitVec.ofNat 16 k)

/-- The bus accesses of fetching this instruction, the first made first: byte 3 of a conditional jump or call whose condition
is false is not read (30_encoding.md R93). -/
def State.fetchEvents (s : State) (i : Instr) : List BusEvent :=
  match (encode i).length with
  | 1 => [.fetch s.pc (s.byteAt s.pc)]
  | 2 => [.fetch s.pc (s.byteAt s.pc), .memRead (s.pc + 1) (s.byteAt (s.pc + 1))]
  | _ =>
    if s.taken i then
      [.fetch s.pc (s.byteAt s.pc), .memRead (s.pc + 1) (s.byteAt (s.pc + 1)), .memRead (s.pc + 2) (s.byteAt (s.pc + 2))]
    else [.fetch s.pc (s.byteAt s.pc), .memRead (s.pc + 1) (s.byteAt (s.pc + 1))]

/-- The state an instruction's rule starts from when the step fetches it from populated memory: the boundary's requests are
latched, pc stands at the next instruction, the environment has seen the fetch. -/
def State.fetched (s : State) (i : Instr) : State :=
  { s.latchRequests with
    pc := s.pc + BitVec.ofNat 16 (encode i).length
    env := { s.latchRequests.env with bus := (s.fetchEvents i).reverse ++ s.env.bus } }

/-- The state a step ends in when its instruction's rule ended in `t`: an EI executed before takes effect unless the
instruction is EI or DI, and the step's inputs are used up. -/
def State.finished (s : State) (i : Instr) (t : State) : State :=
  { t with
    irq := if s.irq.eiPending = true ∧ i ≠ .ei ∧ i ≠ .di then { t.irq with ie := true, eiPending := false } else t.irq
    env.inputs := t.env.inputs.tail }

/-! ### Which flags an instruction writes -/

/-- The three kinds of instruction that do not write all five flags (10_state.md R30). -/
inductive FlagWrite where
  | all | allButCy | onlyCy | none
deriving DecidableEq, Repr

/-- The list of 10_state.md R30. -/
def flagWrite : Instr → FlagWrite
  | .addR _ | .addM | .adi _ | .adcR _ | .adcM | .aci _ | .subR _ | .subM | .sui _ | .sbbR _ | .sbbM | .sbi _ | .daa
  | .anaR _ | .anaM | .ani _ | .xraR _ | .xraM | .xri _ | .oraR _ | .oraM | .ori _ | .cmpR _ | .cmpM | .cpi _ | .popPsw => .all
  | .inrR _ | .inrM | .dcrR _ | .dcrM => .allButCy
  | .dad _ | .rlc | .rrc | .ral | .rar | .cmc | .stc => .onlyCy
  | .movRR _ _ | .movRM _ | .movMR _ | .mviR _ _ | .mviM _ | .lxi _ _ | .lda _ | .sta _ | .lhld _ | .shld _ | .ldax _
  | .stax _ | .xchg | .inx _ | .dcx _ | .cma
  | .jmp _ | .jnz _ | .jz _ | .jnc _ | .jc _ | .jpo _ | .jpe _ | .jp _ | .jm _
  | .call _ | .cnz _ | .cz _ | .cnc _ | .cc _ | .cpo _ | .cpe _ | .cp _ | .cm _
  | .ret | .rnz | .rz | .rnc | .rc | .rpo | .rpe | .rp | .rm | .rst _ | .pchl
  | .push _ | .pushPsw | .pop _ | .xthl | .sphl | .inPort _ | .outPort _ | .ei | .di | .hlt | .nop | .rim | .sim
  | .undef08 | .undef10 | .undef18 | .undef28 | .undef38 | .undefCB | .undefD9 | .undefDD | .undefED | .undefFD => .none

/-! ### How the statements speak of pairs and results, in numbers -/

/-- The number a register pair, or SP, holds (10_state.md R21). -/
def State.pairNat (s : State) : Pair → Nat
  | .bc => 256 * s.regs.b.toNat + s.regs.c.toNat
  | .de => 256 * s.regs.d.toNat + s.regs.e.toNat
  | .hl => 256 * s.regs.h.toNat + s.regs.l.toNat
  | .sp => s.sp.toNat

/-- The pair holds `v` modulo 2^16, both halves written, and no other register nor SP has changed. -/
def State.PairSet (s t : State) (p : Pair) (v : Nat) : Prop :=
  match p with
  | .bc => t.regs = { s.regs with b := BitVec.ofNat 8 (v / 256), c := BitVec.ofNat 8 v } ∧ t.sp = s.sp
  | .de => t.regs = { s.regs with d := BitVec.ofNat 8 (v / 256), e := BitVec.ofNat 8 v } ∧ t.sp = s.sp
  | .hl => t.regs = { s.regs with h := BitVec.ofNat 8 (v / 256), l := BitVec.ofNat 8 v } ∧ t.sp = s.sp
  | .sp => t.regs = s.regs ∧ t.sp = BitVec.ofNat 16 v

/-- A holds A + v + carry modulo 2^8, the flags are the sum's; no other register has changed. -/
def State.AddsIntoA (s t : State) (v : Byte) (carry : Bool) : Prop :=
  t.regs = { s.regs with a := BitVec.ofNat 8 (s.regs.a.toNat + v.toNat + carry.toNat) } ∧ t.flags.OfSum s.regs.a v carry

/-- A holds A - v - borrow modulo 2^8, the flags are the difference's; no other register has changed. -/
def State.SubtractsFromA (s t : State) (v : Byte) (borrow : Bool) : Prop :=
  t.regs = { s.regs with a := BitVec.ofNat 8 (s.regs.a.toNat + 256 - v.toNat - borrow.toNat) } ∧
    t.flags.OfDifference s.regs.a v borrow

/-- A holds the Boolean operation of A and v, bit by bit; Z, S, P are the result's, CY is 0, AC is as given; no other register
has changed. -/
def State.CombinesIntoA (s t : State) (v : Byte) (op : Bool → Bool → Bool) (ac : Bool) : Prop :=
  t.regs = { s.regs with a := t.regs.a } ∧
    (∀ n < 8, t.regs.a.getLsbD n = op (s.regs.a.getLsbD n) (v.getLsbD n)) ∧
    t.flags.ZspOf t.regs.a ∧ t.flags.cy = false ∧ t.flags.ac = ac

/-- The actions of CALL: the next instruction address pushed, pc at the target, nothing else changed. -/
def State.Calls (s t : State) (target : Word) : Prop :=
  t = { s with sp := t.sp, pc := target, mem := t.mem, env := t.env } ∧
    s.Pushes t (BitVec.ofNat 8 (highPart s.pc)) (BitVec.ofNat 8 (lowPart s.pc))

/-- The actions of RET: pc popped, nothing else changed. -/
def State.Returns (s t : State) : Prop :=
  ∃ high low, t = { s with sp := t.sp, pc := BitVec.ofNat 16 (256 * high.toNat + low.toNat), env := t.env } ∧
    s.Pops t high low

/-- The instructions of the branch group (44_branch.md). -/
def inBranchGroup : Instr → Bool
  | .jmp _ | .jnz _ | .jz _ | .jnc _ | .jc _ | .jpo _ | .jpe _ | .jp _ | .jm _
  | .call _ | .cnz _ | .cz _ | .cnc _ | .cc _ | .cpo _ | .cpe _ | .cp _ | .cm _
  | .ret | .rnz | .rz | .rnc | .rc | .rpo | .rpe | .rp | .rm | .rst _ | .pchl => true
  | _ => false

/-- The flag that bits 2:1 of a condition code choose: 00 Z, 01 CY, 10 P, 11 S (44_branch.md R210). -/
def Flags.chosenBy (f : Flags) (ccc : Nat) : Bool :=
  match ccc / 2 with
  | 0 => f.z
  | 1 => f.cy
  | 2 => f.p
  | _ => f.s

/-- Two decimal digits in one byte: the tens digit in the high-order four bits. -/
def packedDigits (n : Nat) : Byte := BitVec.ofNat 8 (16 * (n / 10) + n % 10)

/-- The rules of these instructions one after another, each from the state the one before left (no fetch between them). -/
def runRules : List Instr → State → Outcome
  | [], s => .next s
  | i :: rest, s =>
    match exec i s with
    | .next t => runRules rest t
    | .fault f => .fault f
    | .refused r => .refused r

end Sys2Proof.Machine
end

