-- ==== Sys2Proof/Certificates/Slice0/Obligations.lean ====
section
/-! DEFINITION. The statements for the provers. Numbers are decimal or hexadecimal as the spec prints them; the words they are
written in (RowIs, Stores, Sees, ReadsAs, ...) stand in Sys2Proof/Safety.lean. `exec` starts after the fetch (00_scope.md R13). -/

open Sys2Proof Sys2Proof.Machine

/-! ### Data transfer (41_data_transfer.md) -/

/-- R131. A register to itself changes nothing. -/
def Obligations.MoveRegisterToRegister : Prop :=
  ∀ (dst src : Reg) (b : Bool) (s : State),
    RowIs (.movRR dst src) b [0x40 + 8 * dst.code.toNat + src.code.toNat] [.f] 4 ∧
    ∃ t, exec (.movRR dst src) s = .next t ∧ t = { s with regs := t.regs } ∧ s.Stores t [] ∧
      (∀ r, t.reg r = if r = dst then s.reg src else s.reg r) ∧ (dst = src → t = s)

/-- R132. The address is formed from H and L as they were before the load. -/
def Obligations.MoveFromMemory : Prop :=
  ∀ (dst : Reg) (b : Bool) (s : State),
    RowIs (.movRM dst) b [0x46 + 8 * dst.code.toNat] [.f, .r] 7 ∧ s.addrM.toNat = s.pairNat .hl ∧
    ∃ t v, exec (.movRM dst) s = .next t ∧ t = { s with regs := t.regs, env := t.env } ∧ s.Stores t [] ∧
      s.ReadsAs s.addrM v ∧ s.Sees t [.memRead s.addrM v] ∧ ∀ r, t.reg r = if r = dst then v else s.reg r

/-- R133, R135. What a write outside RAM does is the platform's: see NonRamNeverChanges. -/
def Obligations.MoveToMemory : Prop :=
  ∀ (src : Reg) (v : Byte) (b : Bool) (s : State), s.mem.wf = true →
    RowIs (.movMR src) b [0x70 + src.code.toNat] [.f, .w] 7 ∧ RowIs (.mviM v) b [0x36, v.toNat] [.f, .r, .w] 10 ∧
    s.addrM.toNat = s.pairNat .hl ∧
    (∃ t, exec (.movMR src) s = .next t ∧ t = { s with mem := t.mem, env := t.env } ∧
      s.Stores t [(s.addrM, s.reg src)] ∧ s.Sees t [.memWrite s.addrM (s.reg src)]) ∧
    ∃ t, exec (.mviM v) s = .next t ∧ t = { s with mem := t.mem, env := t.env } ∧
      s.Stores t [(s.addrM, v)] ∧ s.Sees t [.memWrite s.addrM v]

/-- R134, R136. -/
def Obligations.MoveImmediate : Prop :=
  ∀ (dst : Reg) (v : Byte) (rp : Pair) (data : Word) (b : Bool) (s : State),
    RowIs (.mviR dst v) b [0x06 + 8 * dst.code.toNat, v.toNat] [.f, .r] 7 ∧
    RowIs (.lxi rp data) b [0x01 + 16 * rp.code.toNat, lowPart data, highPart data] [.f, .r, .r] 10 ∧
    (∃ t, exec (.mviR dst v) s = .next t ∧ t = { s with regs := t.regs } ∧ s.Stores t [] ∧
      ∀ r, t.reg r = if r = dst then v else s.reg r) ∧
    ∃ t, exec (.lxi rp data) s = .next t ∧ t = { s with regs := t.regs, sp := t.sp } ∧ s.Stores t [] ∧
      s.PairSet t rp data.toNat

/-- R137, R141. -/
def Obligations.LoadAccumulator : Prop :=
  ∀ (addr : Word) (rp : IndexPair) (b : Bool) (s : State),
    RowIs (.lda addr) b [0x3A, lowPart addr, highPart addr] [.f, .r, .r, .r] 13 ∧
    RowIs (.ldax rp) b [0x0A + 16 * rp.code.toNat] [.f, .r] 7 ∧
    (s.pair (pairOfIndex rp)).toNat = s.pairNat (pairOfIndex rp) ∧
    (∃ t v, exec (.lda addr) s = .next t ∧ t = { s with regs.a := v, env := t.env } ∧ s.Stores t [] ∧
      s.ReadsAs addr v ∧ s.Sees t [.memRead addr v]) ∧
    ∃ t v, exec (.ldax rp) s = .next t ∧ t = { s with regs.a := v, env := t.env } ∧ s.Stores t [] ∧
      s.ReadsAs (s.pair (pairOfIndex rp)) v ∧ s.Sees t [.memRead (s.pair (pairOfIndex rp)) v]

/-- R138, R142. -/
def Obligations.StoreAccumulator : Prop :=
  ∀ (addr : Word) (rp : IndexPair) (b : Bool) (s : State), s.mem.wf = true →
    RowIs (.sta addr) b [0x32, lowPart addr, highPart addr] [.f, .r, .r, .w] 13 ∧
    RowIs (.stax rp) b [0x02 + 16 * rp.code.toNat] [.f, .w] 7 ∧
    (s.pair (pairOfIndex rp)).toNat = s.pairNat (pairOfIndex rp) ∧
    (∃ t, exec (.sta addr) s = .next t ∧ t = { s with mem := t.mem, env := t.env } ∧
      s.Stores t [(addr, s.regs.a)] ∧ s.Sees t [.memWrite addr s.regs.a]) ∧
    ∃ t, exec (.stax rp) s = .next t ∧ t = { s with mem := t.mem, env := t.env } ∧
      s.Stores t [(s.pair (pairOfIndex rp), s.regs.a)] ∧ s.Sees t [.memWrite (s.pair (pairOfIndex rp)) s.regs.a]

/-- LHLD and SHLD. That the address after 0xFFFF is 0x0000 is the spec's decision D1 (log 25), so no rule is cited. -/
def Obligations.LoadAndStoreHLDirect : Prop :=
  ∀ (addr : Word) (b : Bool) (s : State), s.mem.wf = true →
    RowIs (.lhld addr) b [0x2A, lowPart addr, highPart addr] [.f, .r, .r, .r, .r] 16 ∧
    RowIs (.shld addr) b [0x22, lowPart addr, highPart addr] [.f, .r, .r, .w, .w] 16 ∧
    (∃ t lo hi, exec (.lhld addr) s = .next t ∧ t = { s with regs.l := lo, regs.h := hi, env := t.env } ∧ s.Stores t [] ∧
      s.ReadsAs addr lo ∧ s.ReadsAs (addr + 1) hi ∧ s.Sees t [.memRead addr lo, .memRead (addr + 1) hi]) ∧
    ∃ t, exec (.shld addr) s = .next t ∧ t = { s with mem := t.mem, env := t.env } ∧
      s.Stores t [(addr, s.regs.l), (addr + 1, s.regs.h)] ∧
      s.Sees t [.memWrite addr s.regs.l, .memWrite (addr + 1) s.regs.h]

/-- R143. Two in a row restore the state. -/
def Obligations.ExchangeDEWithHL : Prop :=
  ∀ (b : Bool) (s : State),
    RowIs .xchg b [0xEB] [.f] 4 ∧
    (∃ t, exec .xchg s = .next t ∧ s.Stores t [] ∧
      t = { s with regs := { s.regs with h := s.regs.d, l := s.regs.e, d := s.regs.h, e := s.regs.l } }) ∧
    runRules [.xchg, .xchg] s = .next s

/-! ### Arithmetic (42_arithmetic.md) -/

/-- R153 to R158. -/
def Obligations.Additions : Prop :=
  ∀ (r : Reg) (v : Byte) (b : Bool) (s : State),
    (RowIs (.addR r) b [0x80 + r.code.toNat] [.f] 4 ∧ RowIs .addM b [0x86] [.f, .r] 7 ∧
      RowIs (.adi v) b [0xC6, v.toNat] [.f, .r] 7 ∧ RowIs (.adcR r) b [0x88 + r.code.toNat] [.f] 4 ∧
      RowIs .adcM b [0x8E] [.f, .r] 7 ∧ RowIs (.aci v) b [0xCE, v.toNat] [.f, .r] 7) ∧
    s.addrM.toNat = s.pairNat .hl ∧
    (∃ t, exec (.addR r) s = .next t ∧ t = { s with regs := t.regs, flags := t.flags } ∧ s.Stores t [] ∧
      s.AddsIntoA t (s.reg r) false) ∧
    (∃ t m, exec .addM s = .next t ∧ t = { s with regs := t.regs, flags := t.flags, env := t.env } ∧ s.Stores t [] ∧
      s.ReadsAs s.addrM m ∧ s.Sees t [.memRead s.addrM m] ∧ s.AddsIntoA t m false) ∧
    (∃ t, exec (.adi v) s = .next t ∧ t = { s with regs := t.regs, flags := t.flags } ∧ s.Stores t [] ∧
      s.AddsIntoA t v false) ∧
    (∃ t, exec (.adcR r) s = .next t ∧ t = { s with regs := t.regs, flags := t.flags } ∧ s.Stores t [] ∧
      s.AddsIntoA t (s.reg r) s.flags.cy) ∧
    (∃ t m, exec .adcM s = .next t ∧ t = { s with regs := t.regs, flags := t.flags, env := t.env } ∧ s.Stores t [] ∧
      s.ReadsAs s.addrM m ∧ s.Sees t [.memRead s.addrM m] ∧ s.AddsIntoA t m s.flags.cy) ∧
    ∃ t, exec (.aci v) s = .next t ∧ t = { s with regs := t.regs, flags := t.flags } ∧ s.Stores t [] ∧
      s.AddsIntoA t v s.flags.cy

/-- SUB, SUI, SBB, SBI. AC is the spec's reading D2 (log 23), so no rule is cited. -/
def Obligations.Subtractions : Prop :=
  ∀ (r : Reg) (v : Byte) (b : Bool) (s : State),
    (RowIs (.subR r) b [0x90 + r.code.toNat] [.f] 4 ∧ RowIs .subM b [0x96] [.f, .r] 7 ∧
      RowIs (.sui v) b [0xD6, v.toNat] [.f, .r] 7 ∧ RowIs (.sbbR r) b [0x98 + r.code.toNat] [.f] 4 ∧
      RowIs .sbbM b [0x9E] [.f, .r] 7 ∧ RowIs (.sbi v) b [0xDE, v.toNat] [.f, .r] 7) ∧
    (∃ t, exec (.subR r) s = .next t ∧ t = { s with regs := t.regs, flags := t.flags } ∧ s.Stores t [] ∧
      s.SubtractsFromA t (s.reg r) false) ∧
    (∃ t m, exec .subM s = .next t ∧ t = { s with regs := t.regs, flags := t.flags, env := t.env } ∧ s.Stores t [] ∧
      s.ReadsAs s.addrM m ∧ s.Sees t [.memRead s.addrM m] ∧ s.SubtractsFromA t m false) ∧
    (∃ t, exec (.sui v) s = .next t ∧ t = { s with regs := t.regs, flags := t.flags } ∧ s.Stores t [] ∧
      s.SubtractsFromA t v false) ∧
    (∃ t, exec (.sbbR r) s = .next t ∧ t = { s with regs := t.regs, flags := t.flags } ∧ s.Stores t [] ∧
      s.SubtractsFromA t (s.reg r) s.flags.cy) ∧
    (∃ t m, exec .sbbM s = .next t ∧ t = { s with regs := t.regs, flags := t.flags, env := t.env } ∧ s.Stores t [] ∧
      s.ReadsAs s.addrM m ∧ s.Sees t [.memRead s.addrM m] ∧ s.SubtractsFromA t m s.flags.cy) ∧
    ∃ t, exec (.sbi v) s = .next t ∧ t = { s with regs := t.regs, flags := t.flags } ∧ s.Stores t [] ∧
      s.SubtractsFromA t v s.flags.cy

/-- R165, R166. AC is 1 exactly when the old low-order four bits were 1111. -/
def Obligations.Increments : Prop :=
  ∀ (r : Reg) (b : Bool) (s : State), s.mem.wf = true →
    RowIs (.inrR r) b [0x04 + 8 * r.code.toNat] [.f] 4 ∧ RowIs .inrM b [0x34] [.f, .r, .w] 10 ∧
    s.addrM.toNat = s.pairNat .hl ∧
    (∃ t, exec (.inrR r) s = .next t ∧ t = { s with regs := t.regs, flags := t.flags } ∧ s.Stores t [] ∧
      (∀ q, t.reg q = if q = r then BitVec.ofNat 8 ((s.reg r).toNat + 1) else s.reg q) ∧
      t.flags.ZspOf (t.reg r) ∧ t.flags.cy = s.flags.cy ∧ (t.flags.ac = true ↔ (s.reg r).toNat % 16 = 15)) ∧
    ∃ t m res, exec .inrM s = .next t ∧ t = { s with mem := t.mem, flags := t.flags, env := t.env } ∧
      s.ReadsAs s.addrM m ∧ res = BitVec.ofNat 8 (m.toNat + 1) ∧ s.Stores t [(s.addrM, res)] ∧
      s.Sees t [.memRead s.addrM m, .memWrite s.addrM res] ∧
      t.flags.ZspOf res ∧ t.flags.cy = s.flags.cy ∧ (t.flags.ac = true ↔ m.toNat % 16 = 15)

/-- DCR r and DCR M. AC is the spec's reading D2 (log 23), so no rule is cited. -/
def Obligations.Decrements : Prop :=
  ∀ (r : Reg) (b : Bool) (s : State), s.mem.wf = true →
    RowIs (.dcrR r) b [0x05 + 8 * r.code.toNat] [.f] 4 ∧ RowIs .dcrM b [0x35] [.f, .r, .w] 10 ∧
    (∃ t, exec (.dcrR r) s = .next t ∧ t = { s with regs := t.regs, flags := t.flags } ∧ s.Stores t [] ∧
      (∀ q, t.reg q = if q = r then BitVec.ofNat 8 ((s.reg r).toNat + 255) else s.reg q) ∧
      t.flags.ZspOf (t.reg r) ∧ t.flags.cy = s.flags.cy ∧ (t.flags.ac = true ↔ (s.reg r).toNat % 16 ≠ 0)) ∧
    ∃ t m res, exec .dcrM s = .next t ∧ t = { s with mem := t.mem, flags := t.flags, env := t.env } ∧
      s.ReadsAs s.addrM m ∧ res = BitVec.ofNat 8 (m.toNat + 255) ∧ s.Stores t [(s.addrM, res)] ∧
      s.Sees t [.memRead s.addrM m, .memWrite s.addrM res] ∧
      t.flags.ZspOf res ∧ t.flags.cy = s.flags.cy ∧ (t.flags.ac = true ↔ m.toNat % 16 ≠ 0)

/-- INX and DCX. That the pair wraps is the spec's decision D1 (log 25), so no rule is cited. -/
def Obligations.PairIncrementAndDecrement : Prop :=
  ∀ (rp : Pair) (b : Bool) (s : State),
    RowIs (.inx rp) b [0x03 + 16 * rp.code.toNat] [.s] 6 ∧ RowIs (.dcx rp) b [0x0B + 16 * rp.code.toNat] [.s] 6 ∧
    (∃ t, exec (.inx rp) s = .next t ∧ t = { s with regs := t.regs, sp := t.sp } ∧ s.Stores t [] ∧
      s.PairSet t rp (s.pairNat rp + 1)) ∧
    ∃ t, exec (.dcx rp) s = .next t ∧ t = { s with regs := t.regs, sp := t.sp } ∧ s.Stores t [] ∧
      s.PairSet t rp (s.pairNat rp + 65535)

/-- R171. -/
def Obligations.DoubleAdd : Prop :=
  ∀ (rp : Pair) (b : Bool) (s : State),
    RowIs (.dad rp) b [0x09 + 16 * rp.code.toNat] [.f, .b, .b] 10 ∧
    ∃ t, exec (.dad rp) s = .next t ∧ t = { s with regs := t.regs, flags.cy := t.flags.cy } ∧ s.Stores t [] ∧
      s.PairSet t .hl (s.pairNat .hl + s.pairNat rp) ∧
      (t.flags.cy = true ↔ 65536 ≤ s.pairNat .hl + s.pairNat rp)

/-- DAA. The two conditions and the two additions are the source's; CY, AC and the carry of step 1 are the spec's reading D3
(log 24), so no rule is cited. -/
def Obligations.DecimalAdjust : Prop :=
  ∀ (b : Bool) (s : State),
    RowIs .daa b [0x27] [.f] 4 ∧
    let acc := s.regs.a.toNat
    let first := acc + if 9 < acc % 16 ∨ s.flags.ac = true then 6 else 0
    let second := first % 256 + if 9 < first % 256 / 16 ∨ s.flags.cy = true ∨ 256 ≤ first then 96 else 0
    ∃ t, exec .daa s = .next t ∧ t = { s with regs := { s.regs with a := BitVec.ofNat 8 second }, flags := t.flags } ∧
      s.Stores t [] ∧ t.flags.ZspOf t.regs.a ∧
      (t.flags.cy = true ↔ s.flags.cy = true ∨ 256 ≤ first ∨ 256 ≤ second) ∧
      (t.flags.ac = true ↔ (9 < acc % 16 ∨ s.flags.ac = true) ∧ 16 ≤ acc % 16 + 6)

/-- What DAA is for: a sum of packed decimal numbers (with carry in) adjusts to the decimal sum, with the carry to the next two
digits. It rests on the spec's reading D3 (log 24), so no rule is cited. -/
def Obligations.DecimalSumIsDecimal : Prop :=
  ∀ (x y : Nat) (s : State), x < 100 → y < 100 → s.regs.a = packedDigits x →
    ∃ t, runRules [.aci (packedDigits y), .daa] s = .next t ∧
      t.regs.a = packedDigits ((x + y + s.flags.cy.toNat) % 100) ∧
      (t.flags.cy = true ↔ 100 ≤ x + y + s.flags.cy.toNat)

/-! ### Logical (43_logical.md) -/

/-- R182 to R189, and ANA r likewise: the 8085's flags, not the 8080's (the spec's D14, scope rule R4 (a)). -/
def Obligations.LogicalOperations : Prop :=
  ∀ (r : Reg) (v : Byte) (b : Bool) (s : State),
    (RowIs (.anaR r) b [0xA0 + r.code.toNat] [.f] 4 ∧ RowIs .anaM b [0xA6] [.f, .r] 7 ∧
      RowIs (.ani v) b [0xE6, v.toNat] [.f, .r] 7 ∧ RowIs (.xraR r) b [0xA8 + r.code.toNat] [.f] 4 ∧
      RowIs .xraM b [0xAE] [.f, .r] 7 ∧ RowIs (.xri v) b [0xEE, v.toNat] [.f, .r] 7 ∧
      RowIs (.oraR r) b [0xB0 + r.code.toNat] [.f] 4 ∧ RowIs .oraM b [0xB6] [.f, .r] 7 ∧
      RowIs (.ori v) b [0xF6, v.toNat] [.f, .r] 7) ∧
    s.addrM.toNat = s.pairNat .hl ∧
    (∀ x ∈ [(Instr.anaR r, s.reg r, and, true), (.ani v, v, and, true), (.xraR r, s.reg r, xor, false),
        (.xri v, v, xor, false), (.oraR r, s.reg r, or, false), (.ori v, v, or, false)],
      ∃ t, exec x.1 s = .next t ∧ t = { s with regs := t.regs, flags := t.flags } ∧ s.Stores t [] ∧
        s.CombinesIntoA t x.2.1 x.2.2.1 x.2.2.2) ∧
    ∀ x ∈ [(Instr.anaM, and, true), (.xraM, xor, false), (.oraM, or, false)],
      ∃ t m, exec x.1 s = .next t ∧ t = { s with regs := t.regs, flags := t.flags, env := t.env } ∧ s.Stores t [] ∧
        s.ReadsAs s.addrM m ∧ s.Sees t [.memRead s.addrM m] ∧ s.CombinesIntoA t m x.2.1 x.2.2

/-- CMP and CPI. AC is the spec's reading D2 (log 23), so no rule is cited. -/
def Obligations.Compares : Prop :=
  ∀ (r : Reg) (v : Byte) (b : Bool) (s : State),
    (RowIs (.cmpR r) b [0xB8 + r.code.toNat] [.f] 4 ∧ RowIs .cmpM b [0xBE] [.f, .r] 7 ∧
      RowIs (.cpi v) b [0xFE, v.toNat] [.f, .r] 7) ∧
    (∃ t, exec (.cmpR r) s = .next t ∧ t = { s with flags := t.flags } ∧ s.Stores t [] ∧
      t.flags.OfDifference s.regs.a (s.reg r) false ∧ (t.flags.z = true ↔ s.regs.a = s.reg r) ∧
      (t.flags.cy = true ↔ s.regs.a.toNat < (s.reg r).toNat)) ∧
    (∃ t m, exec .cmpM s = .next t ∧ t = { s with flags := t.flags, env := t.env } ∧ s.Stores t [] ∧
      s.ReadsAs s.addrM m ∧ s.Sees t [.memRead s.addrM m] ∧ t.flags.OfDifference s.regs.a m false ∧
      (t.flags.z = true ↔ s.regs.a = m) ∧ (t.flags.cy = true ↔ s.regs.a.toNat < m.toNat)) ∧
    ∃ t, exec (.cpi v) s = .next t ∧ t = { s with flags := t.flags } ∧ s.Stores t [] ∧
      t.flags.OfDifference s.regs.a v false ∧ (t.flags.z = true ↔ s.regs.a = v) ∧
      (t.flags.cy = true ↔ s.regs.a.toNat < v.toNat)

/-- R193 to R196: bit by bit, then how many of each restore what they rotate. -/
def Obligations.Rotates : Prop :=
  ∀ (b : Bool) (s : State),
    (RowIs .rlc b [0x07] [.f] 4 ∧ RowIs .rrc b [0x0F] [.f] 4 ∧ RowIs .ral b [0x17] [.f] 4 ∧ RowIs .rar b [0x1F] [.f] 4) ∧
    (∃ t, exec .rlc s = .next t ∧ t = { s with regs.a := t.regs.a, flags.cy := t.flags.cy } ∧ s.Stores t [] ∧
      (∀ n < 7, t.regs.a.getLsbD (n + 1) = s.regs.a.getLsbD n) ∧ t.regs.a.getLsbD 0 = s.regs.a.getLsbD 7 ∧
      t.flags.cy = s.regs.a.getLsbD 7) ∧
    (∃ t, exec .rrc s = .next t ∧ t = { s with regs.a := t.regs.a, flags.cy := t.flags.cy } ∧ s.Stores t [] ∧
      (∀ n < 7, t.regs.a.getLsbD n = s.regs.a.getLsbD (n + 1)) ∧ t.regs.a.getLsbD 7 = s.regs.a.getLsbD 0 ∧
      t.flags.cy = s.regs.a.getLsbD 0) ∧
    (∃ t, exec .ral s = .next t ∧ t = { s with regs.a := t.regs.a, flags.cy := t.flags.cy } ∧ s.Stores t [] ∧
      (∀ n < 7, t.regs.a.getLsbD (n + 1) = s.regs.a.getLsbD n) ∧ t.regs.a.getLsbD 0 = s.flags.cy ∧
      t.flags.cy = s.regs.a.getLsbD 7) ∧
    (∃ t, exec .rar s = .next t ∧ t = { s with regs.a := t.regs.a, flags.cy := t.flags.cy } ∧ s.Stores t [] ∧
      (∀ n < 7, t.regs.a.getLsbD n = s.regs.a.getLsbD (n + 1)) ∧ t.regs.a.getLsbD 7 = s.flags.cy ∧
      t.flags.cy = s.regs.a.getLsbD 0) ∧
    (∃ t, runRules (List.replicate 8 .rlc) s = .next t ∧ t.regs.a = s.regs.a) ∧
    (∃ t, runRules (List.replicate 8 .rrc) s = .next t ∧ t.regs.a = s.regs.a) ∧
    runRules (List.replicate 9 .ral) s = .next s ∧ runRules (List.replicate 9 .rar) s = .next s

/-- R197 to R199. Two CMA restore A. -/
def Obligations.ComplementAndCarry : Prop :=
  ∀ (b : Bool) (s : State),
    (RowIs .cma b [0x2F] [.f] 4 ∧ RowIs .cmc b [0x3F] [.f] 4 ∧ RowIs .stc b [0x37] [.f] 4) ∧
    (∃ t, exec .cma s = .next t ∧ t = { s with regs.a := t.regs.a } ∧ s.Stores t [] ∧
      ∀ n < 8, t.regs.a.getLsbD n = !s.regs.a.getLsbD n) ∧
    (∃ t, exec .cmc s = .next t ∧ t = { s with flags.cy := !s.flags.cy } ∧ s.Stores t []) ∧
    (∃ t, exec .stc s = .next t ∧ t = { s with flags.cy := true } ∧ s.Stores t []) ∧
    runRules [.cma, .cma] s = .next s

/-! ### Branches (44_branch.md) -/

/-- R211, R239, R256. -/
def Obligations.JumpAndHLTransfers : Prop :=
  ∀ (addr : Word) (b : Bool) (s : State),
    (RowIs (.jmp addr) b [0xC3, lowPart addr, highPart addr] [.f, .r, .r] 10 ∧ RowIs .pchl b [0xE9] [.s] 6 ∧
      RowIs .sphl b [0xF9] [.s] 6) ∧
    (∃ t, exec (.jmp addr) s = .next t ∧ t = { s with pc := addr } ∧ s.Stores t []) ∧
    (∃ t, exec .pchl s = .next t ∧ t = { s with pc := BitVec.ofNat 16 (s.pairNat .hl) } ∧ s.Stores t []) ∧
    ∃ t, exec .sphl s = .next t ∧ t = { s with sp := BitVec.ofNat 16 (s.pairNat .hl) } ∧ s.Stores t []

/-- R212 to R219. -/
def Obligations.ConditionalJumps : Prop :=
  ∀ (addr : Word) (s : State),
    ∀ x ∈ [(Instr.jnz addr, 0xC2, !s.flags.z), (.jz addr, 0xCA, s.flags.z), (.jnc addr, 0xD2, !s.flags.cy),
        (.jc addr, 0xDA, s.flags.cy), (.jpo addr, 0xE2, !s.flags.p), (.jpe addr, 0xEA, s.flags.p),
        (.jp addr, 0xF2, !s.flags.s), (.jm addr, 0xFA, s.flags.s)],
      RowIs x.1 true [x.2.1, lowPart addr, highPart addr] [.f, .r, .r] 10 ∧
      RowIs x.1 false [x.2.1, lowPart addr, highPart addr] [.f, .r] 7 ∧
      ∃ t, exec x.1 s = .next t ∧ t = { s with pc := if x.2.2 then addr else s.pc } ∧ s.Stores t []

/-- CALL and RST n. That SP wraps is the spec's decision D1 (log 25), so no rule is cited. -/
def Obligations.CallAndRestart : Prop :=
  ∀ (addr : Word) (n : Nat) (b : Bool) (s : State), s.mem.wf = true → n < 8 →
    RowIs (.call addr) b [0xCD, lowPart addr, highPart addr] [.s, .r, .r, .w, .w] 18 ∧
    RowIs (.rst n) b [0xC7 + 8 * n] [.s, .w, .w] 12 ∧
    (∃ t, exec (.call addr) s = .next t ∧ s.Calls t addr) ∧
    ∃ t, exec (.rst n) s = .next t ∧ s.Calls t (BitVec.ofNat 16 (8 * n))

/-- The eight conditional calls. That SP wraps is the spec's decision D1 (log 25), so no rule is cited. -/
def Obligations.ConditionalCalls : Prop :=
  ∀ (addr : Word) (s : State), s.mem.wf = true →
    ∀ x ∈ [(Instr.cnz addr, 0xC4, !s.flags.z), (.cz addr, 0xCC, s.flags.z), (.cnc addr, 0xD4, !s.flags.cy),
        (.cc addr, 0xDC, s.flags.cy), (.cpo addr, 0xE4, !s.flags.p), (.cpe addr, 0xEC, s.flags.p),
        (.cp addr, 0xF4, !s.flags.s), (.cm addr, 0xFC, s.flags.s)],
      RowIs x.1 true [x.2.1, lowPart addr, highPart addr] [.s, .r, .r, .w, .w] 18 ∧
      RowIs x.1 false [x.2.1, lowPart addr, highPart addr] [.s, .r] 9 ∧
      ∃ t, exec x.1 s = .next t ∧ if x.2.2 then s.Calls t addr else t = s

/-- RET and the eight conditional returns. That SP wraps is the spec's decision D1 (log 25), so no rule is cited. -/
def Obligations.ReturnsAndConditionalReturns : Prop :=
  ∀ (b : Bool) (s : State),
    RowIs .ret b [0xC9] [.f, .r, .r] 10 ∧ (∃ t, exec .ret s = .next t ∧ s.Returns t) ∧
    ∀ x ∈ [(Instr.rnz, 0xC0, !s.flags.z), (.rz, 0xC8, s.flags.z), (.rnc, 0xD0, !s.flags.cy), (.rc, 0xD8, s.flags.cy),
        (.rpo, 0xE0, !s.flags.p), (.rpe, 0xE8, s.flags.p), (.rp, 0xF0, !s.flags.s), (.rm, 0xF8, s.flags.s)],
      RowIs x.1 true [x.2.1] [.s, .r, .r] 12 ∧ RowIs x.1 false [x.2.1] [.s] 6 ∧
      ∃ t, exec x.1 s = .next t ∧ if x.2.2 then s.Returns t else t = s

/-- R210: bits 2:1 of CCC choose the flag, bit 0 the value it must have; AC is tested by none; no branch writes a flag or
raises an exception. -/
def Obligations.BranchConditions : Prop :=
  (∀ (ccc : Nat) (b2 b3 : Byte), ccc < 8 → ∃ cond,
    branchCond (decodeOp (BitVec.ofNat 8 (0xC2 + 8 * ccc)) b2 b3) = some cond ∧
    branchCond (decodeOp (BitVec.ofNat 8 (0xC4 + 8 * ccc)) b2 b3) = some cond ∧
    branchCond (decodeOp (BitVec.ofNat 8 (0xC0 + 8 * ccc)) b2 b3) = some cond ∧
    (∀ f : Flags, f.holds cond = true ↔ (f.chosenBy ccc = true ↔ ccc % 2 = 1)) ∧
    ∀ (f : Flags) (bit : Bool), { f with ac := bit }.holds cond = f.holds cond) ∧
  ∀ (i : Instr) (s : State), inBranchGroup i = true →
    (∃ t, exec i s = .next t) ∧ (∀ t, exec i s = .next t → t.flags = s.flags) ∧ ∀ f, exec i s ≠ .fault f

/-! ### Stack, I/O and machine control (45_stack_io_control.md) -/

/-- PUSH rp. That SP wraps is the spec's decision D1 (log 25), so no rule is cited. -/
def Obligations.PushPair : Prop :=
  ∀ (rp : StackPair) (b : Bool) (s : State), s.mem.wf = true →
    RowIs (.push rp) b [0xC5 + 16 * rp.code.toNat] [.s, .w, .w] 12 ∧
    ∃ t, exec (.push rp) s = .next t ∧ t = { s with sp := t.sp, mem := t.mem, env := t.env } ∧
      s.Pushes t (BitVec.ofNat 8 (s.pairNat (pairOfStack rp) / 256)) (BitVec.ofNat 8 (s.pairNat (pairOfStack rp)))

/-- PUSH PSW: five bits of the flag word are the flags, nothing is said of bits 5, 3 and 1. That SP wraps is the spec's decision
D1 (log 25), so no rule is cited. -/
def Obligations.PushStatusWord : Prop :=
  ∀ (b : Bool) (s : State), s.mem.wf = true →
    RowIs .pushPsw b [0xF5] [.s, .w, .w] 12 ∧
    ∃ t w, exec .pushPsw s = .next t ∧ t = { s with sp := t.sp, mem := t.mem, env := t.env } ∧ s.Pushes t s.regs.a w ∧
      w.getLsbD 7 = s.flags.s ∧ w.getLsbD 6 = s.flags.z ∧ w.getLsbD 4 = s.flags.ac ∧ w.getLsbD 2 = s.flags.p ∧
      w.getLsbD 0 = s.flags.cy

/-- POP rp. That SP wraps is the spec's decision D1 (log 25), so no rule is cited. -/
def Obligations.PopPair : Prop :=
  ∀ (rp : StackPair) (b : Bool) (s : State),
    RowIs (.pop rp) b [0xC1 + 16 * rp.code.toNat] [.f, .r, .r] 10 ∧
    ∃ t high low, exec (.pop rp) s = .next t ∧ t = { s with regs := t.regs, sp := t.sp, env := t.env } ∧
      s.Pops t high low ∧ t.regs = (match rp with
        | .bc => { s.regs with b := high, c := low }
        | .de => { s.regs with d := high, e := low }
        | .hl => { s.regs with h := high, l := low })

/-- POP PSW: bits 5, 3 and 1 of the byte read are ignored. That SP wraps is the spec's decision D1 (log 25), so no rule is
cited. -/
def Obligations.PopStatusWord : Prop :=
  ∀ (b : Bool) (s : State),
    RowIs .popPsw b [0xF1] [.f, .r, .r] 10 ∧
    ∃ t high low, exec .popPsw s = .next t ∧
      t = { s with regs := { s.regs with a := high }, flags := t.flags, sp := t.sp, env := t.env } ∧ s.Pops t high low ∧
      t.flags = { s := low.getLsbD 7, z := low.getLsbD 6, ac := low.getLsbD 4, p := low.getLsbD 2, cy := low.getLsbD 0 }

/-- XTHL. The order of its two writes is the spec's decision D13 (log 26), so no rule is cited. -/
def Obligations.ExchangeTopOfStack : Prop :=
  ∀ (b : Bool) (s : State), s.mem.wf = true →
    RowIs .xthl b [0xE3] [.f, .r, .r, .w, .w] 16 ∧
    ∃ t lo hi, exec .xthl s = .next t ∧ t = { s with regs.l := lo, regs.h := hi, mem := t.mem, env := t.env } ∧
      s.ReadsAs s.sp lo ∧ s.ReadsAs (s.sp + 1) hi ∧ s.Stores t [(s.sp, s.regs.l), (s.sp + 1, s.regs.h)] ∧
      s.Sees t [.memRead s.sp lo, .memRead (s.sp + 1) hi, .memWrite s.sp s.regs.l, .memWrite (s.sp + 1) s.regs.h]

/-- PUSH PSW then POP PSW restores A and all five flags whatever the three undefined bits are, and SP. -/
def Obligations.PushThenPopStatusWord : Prop :=
  ∀ s : State, s.mem.wf = true → s.IsRam (s.sp - 1) → s.IsRam (s.sp - 2) →
    ∃ t, runRules [.pushPsw, .popPsw] s = .next t ∧ t.regs = s.regs ∧ t.flags = s.flags ∧ t.sp = s.sp ∧ t.pc = s.pc ∧
      ∀ a, a ≠ s.sp - 1 → a ≠ s.sp - 2 → t.byteAt a = s.byteAt a

/-- A return takes back what a call or a restart left: everything is as before but the two stack bytes and what the environment
has seen, which is the two writes and the two reads of the next instruction address. That SP wraps is the spec's decision D1
(log 25). -/
def Obligations.CallThenReturn : Prop :=
  ∀ (addr : Word) (n : Nat) (s : State), s.mem.wf = true → s.IsRam (s.sp - 1) → s.IsRam (s.sp - 2) → n < 8 →
    ∀ i ∈ [Instr.call addr, .rst n], ∃ t, runRules [i, .ret] s = .next t ∧
      t = { s with mem := t.mem, env := t.env } ∧
      s.Stores t [(s.sp - 1, BitVec.ofNat 8 (highPart s.pc)), (s.sp - 2, BitVec.ofNat 8 (lowPart s.pc))] ∧
      s.Sees t [.memWrite (s.sp - 1) (BitVec.ofNat 8 (highPart s.pc)), .memWrite (s.sp - 2) (BitVec.ofNat 8 (lowPart s.pc)),
        .memRead (s.sp - 2) (BitVec.ofNat 8 (lowPart s.pc)), .memRead (s.sp - 1) (BitVec.ofNat 8 (highPart s.pc))]

/-- Two XTHL restore H, L and every byte of memory. -/
def Obligations.ExchangeTopOfStackTwice : Prop :=
  ∀ s : State, s.mem.wf = true → s.IsRam s.sp → s.IsRam (s.sp + 1) →
    ∃ t, runRules [.xthl, .xthl] s = .next t ∧ t = { s with mem := t.mem, env := t.env } ∧
      ∀ a, t.byteAt a = s.byteAt a

/-- IN port: the byte the environment's schedule names, where it names one; nothing is said of it elsewhere. That a port
answers from the schedule is the model's choice (log 13), so no rule is cited. -/
def Obligations.InputFromPort : Prop :=
  ∀ (port : Byte) (b : Bool) (s : State),
    RowIs (.inPort port) b [0xDB, port.toNat] [.f, .r, .i] 10 ∧
    ∃ t v, exec (.inPort port) s = .next t ∧ t = { s with regs.a := v, env := t.env } ∧ s.Stores t [] ∧
      s.Sees t [.ioRead port v] ∧ ∀ w, s.now.portByte = some w → v = w

/-- R258. -/
def Obligations.OutputToPort : Prop :=
  ∀ (port : Byte) (b : Bool) (s : State),
    RowIs (.outPort port) b [0xD3, port.toNat] [.f, .r, .o] 10 ∧
    ∃ t, exec (.outPort port) s = .next t ∧ t = { s with env := t.env } ∧ s.Stores t [] ∧
      s.Sees t [.ioWrite port s.regs.a]

/-- EI and DI. EI_PENDING is the spec's cell, its clearing by DI the spec's decision D18 (log 21), so no rule is cited. -/
def Obligations.EnableAndDisable : Prop :=
  ∀ (b : Bool) (s : State),
    RowIs .ei b [0xFB] [.f] 4 ∧ RowIs .di b [0xF3] [.f] 4 ∧
    (∃ t, exec .ei s = .next t ∧ t = { s with irq := { s.irq with eiPending := true } } ∧ s.Stores t []) ∧
    ∃ t, exec .di s = .next t ∧ t = { s with irq := { s.irq with ie := false, eiPending := false } } ∧ s.Stores t []

/-- NOP: nothing is performed beyond the fetch, and 0x00 is the only NOP. The step clause holds the delayed enable of an EI
before it (the spec's decision D18, log 21) and pc + 1 modulo 2^16 (decision D1, log 25), so no rule is cited. -/
def Obligations.NoOperation : Prop :=
  (∀ (b : Bool) (s : State), RowIs .nop b [0x00] [.f] 4 ∧ exec .nop s = .next s) ∧
  (∀ s : State, s.Quiet → s.halted = false → s.Populated s.pc → s.byteAt s.pc = 0 →
    step s = .next (s.finished .nop (s.fetched .nop))) ∧
  ∀ op b2 b3 : Byte, decodeOp op b2 b3 = .nop → op = 0

/-- HLT stops the processor and changes nothing else, and while nothing requests an interrupt the halted machine stays as it is.
That registers and flags are unaffected is the spec's reading D17, what ends the halt D10 (log 22), so no rule is cited. -/
def Obligations.HaltStops : Prop :=
  ∀ (b : Bool) (s : State),
    RowIs .hlt b [0x76] [.f, .b] 5 ∧
    (∃ t, exec .hlt s = .next t ∧ t = { s with halted := true } ∧ s.Stores t []) ∧
    (s.Quiet → s.halted = true →
      ∃ t, step s = .next t ∧ t = { s with irq.i75 := t.irq.i75, env := t.env } ∧
        t.irq.i75 = (s.irq.i75 || s.now.rst75Edge) ∧ t.env = { s.env with inputs := s.env.inputs.tail })

/-- RIM, bit by bit; bit 3 is not fixed directly after an EI. Bits 3 and 6 are the source's places, the others the spec's
decision D15 (log 27), so no rule is cited. -/
def Obligations.ReadInterruptMasks : Prop :=
  ∀ (b : Bool) (s : State),
    RowIs .rim b [0x20] [.f] 4 ∧
    ∃ t, exec .rim s = .next t ∧ s.Stores t [] ∧ s.Sees t [] ∧
      t = { s with regs := { s.regs with a := t.regs.a }, irq := { s.irq with trapTaken := false }, env := t.env } ∧
      t.regs.a.getLsbD 0 = s.irq.m55 ∧ t.regs.a.getLsbD 1 = s.irq.m65 ∧ t.regs.a.getLsbD 2 = s.irq.m75 ∧
      (s.irq.trapTaken = true → t.regs.a.getLsbD 3 = s.irq.ieBeforeTrap) ∧
      (s.irq.trapTaken = false → s.irq.eiPending = false → t.regs.a.getLsbD 3 = s.irq.ie) ∧
      (∀ v, s.now.rimPin55 = some v → t.regs.a.getLsbD 4 = v) ∧
      (∀ v, s.now.rimPin65 = some v → t.regs.a.getLsbD 5 = v) ∧
      t.regs.a.getLsbD 6 = s.irq.i75 ∧ ∀ v, s.now.serialIn = some v → t.regs.a.getLsbD 7 = v

/-- SIM. A change of SOD, and nothing else, is seen by the environment. That bit 5 has no effect is the spec's decision D16
(log 28), so no rule is cited. -/
def Obligations.SetInterruptMasks : Prop :=
  ∀ (b : Bool) (s : State),
    RowIs .sim b [0x30] [.f] 4 ∧
    ∃ t, exec .sim s = .next t ∧ s.Stores t [] ∧
      t = { s with irq := { s.irq with m55 := t.irq.m55, m65 := t.irq.m65, m75 := t.irq.m75, i75 := t.irq.i75 },
                   sod := t.sod, env := t.env } ∧
      t.env = { s.env with bus := if t.sod = s.sod then s.env.bus else .serialOut t.sod :: s.env.bus } ∧
      (s.regs.a.getLsbD 3 = true → t.irq.m55 = s.regs.a.getLsbD 0 ∧ t.irq.m65 = s.regs.a.getLsbD 1 ∧
        t.irq.m75 = s.regs.a.getLsbD 2) ∧
      (s.regs.a.getLsbD 3 = false → t.irq.m55 = s.irq.m55 ∧ t.irq.m65 = s.irq.m65 ∧ t.irq.m75 = s.irq.m75) ∧
      (s.regs.a.getLsbD 4 = true → t.irq.i75 = false) ∧ (s.regs.a.getLsbD 4 = false → t.irq.i75 = s.irq.i75) ∧
      (s.regs.a.getLsbD 6 = true → t.sod = s.regs.a.getLsbD 7) ∧ (s.regs.a.getLsbD 6 = false → t.sod = s.sod)

/-- The ten undefined first bytes. The sources give them no meaning; that the model refuses is the spec's decision D5 (log 29),
so no rule is cited. -/
def Obligations.UndefinedBytesAreRefused : Prop :=
  ∀ (s : State) (rest : List Byte),
    ∀ x ∈ [(Instr.undef08, (0x08 : Byte)), (.undef10, 0x10), (.undef18, 0x18), (.undef28, 0x28), (.undef38, 0x38),
        (.undefCB, 0xCB), (.undefD9, 0xD9), (.undefDD, 0xDD), (.undefED, 0xED), (.undefFD, 0xFD)],
      decode (x.2 :: rest) = .ok (x.1, rest) ∧ exec x.1 s = .refused (.undefinedOpcode x.2)

/-! ### Which instructions write what -/

/-- Which flags an instruction can change (the list of 10_state.md R30, as `flagWrite` transcribes it), for every instruction. -/
def Obligations.FlagsChangeOnlyAsListed : Prop :=
  ∀ (i : Instr) (s t : State), exec i s = .next t →
    (flagWrite i = .none → t.flags = s.flags) ∧
    (flagWrite i = .onlyCy → t.flags = { s.flags with cy := t.flags.cy }) ∧
    (flagWrite i = .allButCy → t.flags.cy = s.flags.cy)

/-- Only SIM and RESET IN change the interrupt masks or SOD, over every step of the machine (10_state.md R37, R39), and in every
step, those two included, the environment sees a serial output event exactly where SOD changes, with the new level
(60_exceptions.md R303). -/
def Obligations.MasksAndSodChangeOnlyBySim : Prop :=
  ∀ s t : State, step s = .next t →
    (s.now.resetIn = false →
      (s.latchRequests.winner = none → s.halted = false → s.latchRequests.fetch.1 ≠ .sim) →
      t.irq.m55 = s.irq.m55 ∧ t.irq.m65 = s.irq.m65 ∧ t.irq.m75 = s.irq.m75 ∧ t.sod = s.sod) ∧
    ∃ events : List BusEvent, t.env.bus = events ++ s.env.bus ∧
      events.filterMap BusEvent.serialLevel = if t.sod = s.sod then [] else [t.sod]

/-! ### Encodings (30_encoding.md) -/

/-- Instruction words written out from the spec's tables, one or more a family, decode to their instructions. -/
def Obligations.TableWordsDecode : Prop :=
  ∀ x ∈ [([0x7B], Instr.movRR .a .e), ([0x74], .movMR .h), ([0x3E, 0x2C], .mviR .a 0x2C), ([0x31, 0xFF, 0x3A], .lxi .sp 0x3AFF),
      ([0x22, 0x00, 0x23], .shld 0x2300), ([0x1A], .ldax .de), ([0x9D], .sbbR .l), ([0xCE, 0xFF], .aci 0xFF), ([0x35], .dcrM),
      ([0x2B], .dcx .hl), ([0x39], .dad .sp), ([0x27], .daa), ([0xAE], .xraM), ([0xBB], .cmpR .e), ([0x1F], .rar),
      ([0xC2, 0x34, 0x12], .jnz 0x1234), ([0xFC, 0x00, 0x20], .cm 0x2000), ([0xE8], .rpe), ([0xEF], .rst 5), ([0xE9], .pchl),
      ([0xD5], .push .de), ([0xF1], .popPsw), ([0xE3], .xthl), ([0xDB, 0x10], .inPort 0x10), ([0xF3], .di), ([0x76], .hlt),
      ([0x20], .rim), ([0x30], .sim)],
    decode x.1 = .ok (x.2, [])

/-- Every well-formed instruction is decoded from its encoding, whatever bytes follow. -/
def Obligations.EncodedInstructionsDecode : Prop :=
  ∀ (i : Instr) (rest : List Byte), i.WellFormed → decode (encode i ++ rest) = .ok (i, rest)

/-- What is decoded is well-formed and encodes to the bytes it was read from; three bytes always decode. -/
def Obligations.DecodedBytesAreTheEncoding : Prop :=
  (∀ (bytes rest : List Byte) (i : Instr), decode bytes = .ok (i, rest) → i.WellFormed ∧ encode i ++ rest = bytes) ∧
  ∀ (op b2 b3 : Byte) (rest : List Byte), ∃ i left, decode (op :: b2 :: b3 :: rest) = .ok (i, left)

/-! ### The instruction cycle, interrupts and reset (60_exceptions.md, 70_reset_and_hazards.md) -/

/-- With no reset and no acceptable request, a machine that is not halted runs the instruction that the bytes at pc decode to.
`State.finished` holds the delayed enable of an EI before it (the spec's decision D18, log 21), `State.fetched` and
`State.Holds` that pc wraps (decision D1, log 25) and that byte 3 of a branch not taken is decoded though not read (the model's
choice, log 30). -/
def Obligations.StepRunsDecodedInstruction : Prop :=
  ∀ (s : State) (i : Instr), s.Quiet → s.halted = false → s.Holds i →
    step s = match exec i (s.fetched i) with
      | .next t => .next (s.finished i t)
      | .fault f => .fault f
      | .refused r => .refused r

/-- The bus accesses of a step that runs an instruction are the machine cycles Table 5-1 gives it, in order. `State.Holds` has
the model's choices of log 25 and log 30 in it: addresses wrap, byte 3 of a branch not taken is decoded though not read. -/
def Obligations.BusFollowsMachineCycles : Prop :=
  ∀ (s t : State) (i : Instr), s.Quiet → s.halted = false → s.Holds i → step s = .next t →
    ∃ events : List BusEvent, t.env.bus = events.reverse ++ s.env.bus ∧
      followsCycles (events.filter BusEvent.isAccess) (machineCycles i (s.taken i)) = true

/-- The one-instruction delay of EI: at the boundary after an EI no maskable request is taken, the next instruction runs, and
unless it is EI or DI it ends with IE set. The delay's exact form is the spec's decision D18 (log 21); `State.fetched` has
decision D1 (log 25) and the model's choice of log 30 in it. -/
def Obligations.EnableTakesEffectAfterNextInstruction : Prop :=
  ∀ (s : State) (i : Instr), s.irq.eiPending = true → s.now.resetIn = false → s.env.trapReq = false → s.now.trap = false →
    s.halted = false → s.Holds i →
    (∀ r, step s = .refused r → exec i (s.fetched i) = .refused r) ∧
    ∀ t, step s = .next t →
      (∃ u, exec i (s.fetched i) = .next u ∧ t = s.finished i u) ∧
      (i ≠ .ei → i ≠ .di → t.irq.ie = true ∧ t.irq.eiPending = false) ∧
      (i = .ei → t.irq.ie = s.irq.ie ∧ t.irq.eiPending = true) ∧
      (i = .di → t.irq.ie = false ∧ t.irq.eiPending = false)

/-- Which request is taken at a boundary, in the default priority. The order, and that TRAP needs no enable, are general
knowledge in the spec (D8; log 18, 19); that EI_PENDING holds off every maskable request is the spec's decision D18 (log 21). -/
def Obligations.HighestPriorityRequestWins : Prop :=
  ∀ s : State, s.env.params.priority = [.trap, .rst75, .rst65, .rst55, .intr] →
    s.winner =
      if s.env.trapReq = true then some .trap
      else if s.irq.ie = false ∨ s.irq.eiPending = true then none
      else if s.irq.i75 = true ∧ s.irq.m75 = false then some .rst75
      else if s.now.pin65 = true ∧ s.irq.m65 = false then some .rst65
      else if s.now.pin55 = true ∧ s.irq.m55 = false then some .rst55
      else if s.now.intr = true then some .intr
      else none

/-- Taking a vectored interrupt: pc pushed, pc at the vector, IE and EI_PENDING and the halt cleared, RST 7.5's latch or TRAP's
request consumed, IE kept for the next RIM by TRAP. The sequence is general knowledge in the spec (D8; log 18); that SP wraps is
decision D1 (log 25); how an RST 7.5 edge and a TRAP request are held is the model's (log 16, 17). -/
def Obligations.VectoredInterruptEntry : Prop :=
  ∀ (s : State) (src : Source) (v : Word), s.mem.wf = true → s.now.resetIn = false →
    s.latchRequests.winner = some src → vectorOf s.env.params src = some v →
    ∃ t, step s = .next t ∧
      t = { s with sp := s.sp - 2, pc := v, halted := false, irq := t.irq, mem := t.mem, env := t.env } ∧
      s.Stores t [(s.sp - 1, BitVec.ofNat 8 (highPart s.pc)), (s.sp - 2, BitVec.ofNat 8 (lowPart s.pc))] ∧
      t.irq = { s.irq with
        ie := false, eiPending := false,
        i75 := if src = .rst75 then false else s.irq.i75 || s.now.rst75Edge,
        trapTaken := if src = .trap then true else s.irq.trapTaken,
        ieBeforeTrap := t.irq.ieBeforeTrap } ∧
      (src ≠ .trap → t.irq.ieBeforeTrap = s.irq.ieBeforeTrap) ∧
      (src = .trap → s.irq.eiPending = false → t.irq.ieBeforeTrap = s.irq.ie) ∧
      t.env = { s.env with
        inputs := s.env.inputs.tail
        trapReq := if src = .trap then false else s.env.trapReq || s.now.trap
        bus := .memWrite (s.sp - 2) (BitVec.ofNat 8 (lowPart s.pc)) ::
          .memWrite (s.sp - 1) (BitVec.ofNat 8 (highPart s.pc)) :: s.env.bus
        draws := t.env.draws }

/-- The INTR acknowledge: RST n and CALL are executed with pc not advanced over them, EI and DI are refused as prohibited, every
other byte is refused as undescribed. RST and CALL are the spec's reading D19 (log 20); that SP wraps is decision D1 (log 25);
how an RST 7.5 edge is held is the model's (log 17). -/
def Obligations.AcknowledgeOfIntr : Prop :=
  ∀ s : State, s.mem.wf = true → s.now.resetIn = false → s.latchRequests.winner = some .intr →
    if s.now.inta1.toNat % 8 = 7 ∧ 192 ≤ s.now.inta1.toNat ∨ s.now.inta1 = 0xCD then
      ∃ t, step s = .next t ∧
        t = { s with sp := s.sp - 2, pc := t.pc, halted := false, mem := t.mem, env := t.env,
                     irq := { s.irq with ie := false, eiPending := false, i75 := s.irq.i75 || s.now.rst75Edge } } ∧
        s.Stores t [(s.sp - 1, BitVec.ofNat 8 (highPart s.pc)), (s.sp - 2, BitVec.ofNat 8 (lowPart s.pc))] ∧
        t.env.inputs = s.env.inputs.tail ∧
        if s.now.inta1 = 0xCD then
          t.pc.toNat = 256 * s.now.inta3.toNat + s.now.inta2.toNat ∧
          t.env.bus = .memWrite (s.sp - 2) (BitVec.ofNat 8 (lowPart s.pc)) ::
            .memWrite (s.sp - 1) (BitVec.ofNat 8 (highPart s.pc)) ::
            .inta s.now.inta3 :: .inta s.now.inta2 :: .inta s.now.inta1 :: s.env.bus
        else
          t.pc.toNat = 8 * (s.now.inta1.toNat / 8 % 8) ∧
          t.env.bus = .memWrite (s.sp - 2) (BitVec.ofNat 8 (lowPart s.pc)) ::
            .memWrite (s.sp - 1) (BitVec.ofNat 8 (highPart s.pc)) :: .inta s.now.inta1 :: s.env.bus
    else if s.now.inta1 = 0xFB ∨ s.now.inta1 = 0xF3 then step s = .refused (.prohibitedAcknowledge s.now.inta1)
    else step s = .refused (.undescribedAcknowledge s.now.inta1)

/-- The TRAP routine's first RIM reports the interrupt enable that stood before the TRAP (unless an EI came directly before),
and the next RIM the current one: bit 3 of A. The entry is general knowledge in the spec (D8; log 18). -/
def Obligations.FirstRimAfterTrap : Prop :=
  ∀ s : State, s.now.resetIn = false → s.latchRequests.winner = some .trap → s.irq.eiPending = false →
    ∃ t u w, step s = .next t ∧ exec .rim t = .next u ∧ exec .rim u = .next w ∧
      u.regs.a.getLsbD 3 = s.irq.ie ∧ w.regs.a.getLsbD 3 = false

/-- RESET IN overrides everything: masks set, SOD and the RST 7.5 latch cleared (the source), pc at RESET_PC and IE, EI_PENDING,
TRAP_TAKEN and HALTED cleared (the spec's decision D9; log 4, 5); registers, SP, flags and IE_BEFORE_TRAP are not fixed (log 6);
memory is unchanged; where SOD was 1 the environment sees it fall. That a TRAP request is kept through RESET IN (log 16) and that
the reset clears an RST 7.5 edge that comes with it (log 17) are the model's choices. -/
def Obligations.ResetInOverridesAll : Prop :=
  ∀ s : State, s.now.resetIn = true →
    ∃ t, step s = .next t ∧ s.Stores t [] ∧
      t = { regs := t.regs, sp := t.sp, pc := s.env.params.resetPc, flags := t.flags,
            irq := { ie := false, eiPending := false, m55 := true, m65 := true, m75 := true, i75 := false,
                     trapTaken := false, ieBeforeTrap := t.irq.ieBeforeTrap },
            sod := false, halted := false, mem := s.mem, env := t.env } ∧
      t.env = { s.env with
        inputs := s.env.inputs.tail
        trapReq := s.env.trapReq || s.now.trap
        bus := if s.sod = true then .serialOut false :: s.env.bus else s.env.bus
        draws := t.env.draws }

/-- The reset state: M55 = M65 = M75 = 1, I75 = 0 and SOD = 0 are the source's; IE = 0, pc = 0x0000, EI_PENDING, TRAP_TAKEN and
HALTED are the spec's decision D9 (log 4, 5). Nothing is said of the cells whose value is the model's choice (log 1, 2, 3, 5). -/
def Obligations.ResetState : Prop :=
  State.reset.irq.m55 = true ∧ State.reset.irq.m65 = true ∧ State.reset.irq.m75 = true ∧ State.reset.irq.i75 = false ∧
  State.reset.sod = false ∧ State.reset.irq.ie = false ∧ State.reset.irq.eiPending = false ∧
  State.reset.irq.trapTaken = false ∧ State.reset.halted = false ∧ State.reset.pc = 0x0000

/-! ### The whole machine -/

/-- Every step keeps the machine's invariant: memory in its one canonical form, the platform's priority an order of the five
inputs. The forms are the model's own (log 7, 19). -/
def Obligations.EveryStepKeepsInvariant : Prop :=
  ∀ s t : State, s.Inv → step s = .next t → t.Inv

/-- The invariant holds at reset. -/
def Obligations.InvariantHoldsAtReset : Prop := State.reset.Inv

/-- No step changes the content of an address that is not RAM, nor the platform's parameters. That a write outside RAM is
absorbed is the model's reading (log 8). -/
def Obligations.NonRamNeverChanges : Prop :=
  ∀ s t : State, step s = .next t →
    t.env.params = s.env.params ∧ ∀ a, ¬ s.IsRam a → t.byteAt a = s.byteAt a

/-- The machine never faults, and refuses only where the spec does: an undefined first byte; an acknowledge byte that is EI or DI
(under a name of its own); an acknowledge byte that is none of RST n, CALL, EI and DI. The refusals are the spec's decisions D5
and D19 (log 20, 29). -/
def Obligations.StopsOnlyWhereSpecRefuses : Prop :=
  ∀ s : State,
    (∃ t, step s = .next t) ∨
    (s.now.resetIn = false ∧ s.latchRequests.winner = none ∧ s.halted = false ∧
      ∃ op, encode s.latchRequests.fetch.1 = [op] ∧ step s = .refused (.undefinedOpcode op) ∧
        op ∈ ([0x08, 0x10, 0x18, 0x28, 0x38, 0xCB, 0xD9, 0xDD, 0xED, 0xFD] : List Byte)) ∨
    (s.now.resetIn = false ∧ s.latchRequests.winner = some .intr ∧
      ((step s = .refused (.prohibitedAcknowledge s.now.inta1) ∧ (s.now.inta1 = 0xFB ∨ s.now.inta1 = 0xF3)) ∨
        (step s = .refused (.undescribedAcknowledge s.now.inta1) ∧
          ¬ (s.now.inta1.toNat % 8 = 7 ∧ 192 ≤ s.now.inta1.toNat) ∧
          s.now.inta1 ∉ ([0xCD, 0xFB, 0xF3] : List Byte))))
end

