-- ==== Sys2Proof/Laws/State.lean ====
section
/-! SUPPORT. One lemma per field per update of State: what each update leaves alone and what it writes. -/

namespace Sys2Proof.Machine

/-! ### setReg -/

@[simp] theorem State.setReg_sp (s : State) (r : Reg) (v : Byte) : (s.setReg r v).sp = s.sp := by cases r <;> rfl
@[simp] theorem State.setReg_pc (s : State) (r : Reg) (v : Byte) : (s.setReg r v).pc = s.pc := by cases r <;> rfl
@[simp] theorem State.setReg_flags (s : State) (r : Reg) (v : Byte) : (s.setReg r v).flags = s.flags := by cases r <;> rfl
@[simp] theorem State.setReg_irq (s : State) (r : Reg) (v : Byte) : (s.setReg r v).irq = s.irq := by cases r <;> rfl
@[simp] theorem State.setReg_sod (s : State) (r : Reg) (v : Byte) : (s.setReg r v).sod = s.sod := by cases r <;> rfl
@[simp] theorem State.setReg_halted (s : State) (r : Reg) (v : Byte) : (s.setReg r v).halted = s.halted := by cases r <;> rfl
@[simp] theorem State.setReg_mem (s : State) (r : Reg) (v : Byte) : (s.setReg r v).mem = s.mem := by cases r <;> rfl
@[simp] theorem State.setReg_env (s : State) (r : Reg) (v : Byte) : (s.setReg r v).env = s.env := by cases r <;> rfl

/-! ### setPair -/

@[simp] theorem State.setPair_pc (s : State) (p : Pair) (v : Word) : (s.setPair p v).pc = s.pc := by cases p <;> rfl
@[simp] theorem State.setPair_flags (s : State) (p : Pair) (v : Word) : (s.setPair p v).flags = s.flags := by cases p <;> rfl
@[simp] theorem State.setPair_irq (s : State) (p : Pair) (v : Word) : (s.setPair p v).irq = s.irq := by cases p <;> rfl
@[simp] theorem State.setPair_sod (s : State) (p : Pair) (v : Word) : (s.setPair p v).sod = s.sod := by cases p <;> rfl
@[simp] theorem State.setPair_halted (s : State) (p : Pair) (v : Word) : (s.setPair p v).halted = s.halted := by cases p <;> rfl
@[simp] theorem State.setPair_mem (s : State) (p : Pair) (v : Word) : (s.setPair p v).mem = s.mem := by cases p <;> rfl
@[simp] theorem State.setPair_env (s : State) (p : Pair) (v : Word) : (s.setPair p v).env = s.env := by cases p <;> rfl

/-! ### setSp -/

@[simp] theorem State.setSp_regs (s : State) (v : Word) : (s.setSp v).regs = s.regs := rfl
@[simp] theorem State.setSp_sp (s : State) (v : Word) : (s.setSp v).sp = v := rfl
@[simp] theorem State.setSp_pc (s : State) (v : Word) : (s.setSp v).pc = s.pc := rfl
@[simp] theorem State.setSp_flags (s : State) (v : Word) : (s.setSp v).flags = s.flags := rfl
@[simp] theorem State.setSp_irq (s : State) (v : Word) : (s.setSp v).irq = s.irq := rfl
@[simp] theorem State.setSp_sod (s : State) (v : Word) : (s.setSp v).sod = s.sod := rfl
@[simp] theorem State.setSp_halted (s : State) (v : Word) : (s.setSp v).halted = s.halted := rfl
@[simp] theorem State.setSp_mem (s : State) (v : Word) : (s.setSp v).mem = s.mem := rfl
@[simp] theorem State.setSp_env (s : State) (v : Word) : (s.setSp v).env = s.env := rfl

/-! ### setPc -/

@[simp] theorem State.setPc_regs (s : State) (v : Word) : (s.setPc v).regs = s.regs := rfl
@[simp] theorem State.setPc_sp (s : State) (v : Word) : (s.setPc v).sp = s.sp := rfl
@[simp] theorem State.setPc_pc (s : State) (v : Word) : (s.setPc v).pc = v := rfl
@[simp] theorem State.setPc_flags (s : State) (v : Word) : (s.setPc v).flags = s.flags := rfl
@[simp] theorem State.setPc_irq (s : State) (v : Word) : (s.setPc v).irq = s.irq := rfl
@[simp] theorem State.setPc_sod (s : State) (v : Word) : (s.setPc v).sod = s.sod := rfl
@[simp] theorem State.setPc_halted (s : State) (v : Word) : (s.setPc v).halted = s.halted := rfl
@[simp] theorem State.setPc_mem (s : State) (v : Word) : (s.setPc v).mem = s.mem := rfl
@[simp] theorem State.setPc_env (s : State) (v : Word) : (s.setPc v).env = s.env := rfl

/-! ### setFlags -/

@[simp] theorem State.setFlags_regs (s : State) (f : Flags) : (s.setFlags f).regs = s.regs := rfl
@[simp] theorem State.setFlags_sp (s : State) (f : Flags) : (s.setFlags f).sp = s.sp := rfl
@[simp] theorem State.setFlags_pc (s : State) (f : Flags) : (s.setFlags f).pc = s.pc := rfl
@[simp] theorem State.setFlags_flags (s : State) (f : Flags) : (s.setFlags f).flags = f := rfl
@[simp] theorem State.setFlags_irq (s : State) (f : Flags) : (s.setFlags f).irq = s.irq := rfl
@[simp] theorem State.setFlags_sod (s : State) (f : Flags) : (s.setFlags f).sod = s.sod := rfl
@[simp] theorem State.setFlags_halted (s : State) (f : Flags) : (s.setFlags f).halted = s.halted := rfl
@[simp] theorem State.setFlags_mem (s : State) (f : Flags) : (s.setFlags f).mem = s.mem := rfl
@[simp] theorem State.setFlags_env (s : State) (f : Flags) : (s.setFlags f).env = s.env := rfl

/-! ### setCy -/

@[simp] theorem State.setCy_regs (s : State) (b : Bool) : (s.setCy b).regs = s.regs := rfl
@[simp] theorem State.setCy_sp (s : State) (b : Bool) : (s.setCy b).sp = s.sp := rfl
@[simp] theorem State.setCy_pc (s : State) (b : Bool) : (s.setCy b).pc = s.pc := rfl
@[simp] theorem State.setCy_irq (s : State) (b : Bool) : (s.setCy b).irq = s.irq := rfl
@[simp] theorem State.setCy_sod (s : State) (b : Bool) : (s.setCy b).sod = s.sod := rfl
@[simp] theorem State.setCy_halted (s : State) (b : Bool) : (s.setCy b).halted = s.halted := rfl
@[simp] theorem State.setCy_mem (s : State) (b : Bool) : (s.setCy b).mem = s.mem := rfl
@[simp] theorem State.setCy_env (s : State) (b : Bool) : (s.setCy b).env = s.env := rfl
@[simp] theorem State.setCy_flags_z (s : State) (b : Bool) : (s.setCy b).flags.z = s.flags.z := rfl
@[simp] theorem State.setCy_flags_s (s : State) (b : Bool) : (s.setCy b).flags.s = s.flags.s := rfl
@[simp] theorem State.setCy_flags_p (s : State) (b : Bool) : (s.setCy b).flags.p = s.flags.p := rfl
@[simp] theorem State.setCy_flags_cy (s : State) (b : Bool) : (s.setCy b).flags.cy = b := rfl
@[simp] theorem State.setCy_flags_ac (s : State) (b : Bool) : (s.setCy b).flags.ac = s.flags.ac := rfl

/-! ### setIrq -/

@[simp] theorem State.setIrq_regs (s : State) (q : Interrupts) : (s.setIrq q).regs = s.regs := rfl
@[simp] theorem State.setIrq_sp (s : State) (q : Interrupts) : (s.setIrq q).sp = s.sp := rfl
@[simp] theorem State.setIrq_pc (s : State) (q : Interrupts) : (s.setIrq q).pc = s.pc := rfl
@[simp] theorem State.setIrq_flags (s : State) (q : Interrupts) : (s.setIrq q).flags = s.flags := rfl
@[simp] theorem State.setIrq_irq (s : State) (q : Interrupts) : (s.setIrq q).irq = q := rfl
@[simp] theorem State.setIrq_sod (s : State) (q : Interrupts) : (s.setIrq q).sod = s.sod := rfl
@[simp] theorem State.setIrq_halted (s : State) (q : Interrupts) : (s.setIrq q).halted = s.halted := rfl
@[simp] theorem State.setIrq_mem (s : State) (q : Interrupts) : (s.setIrq q).mem = s.mem := rfl
@[simp] theorem State.setIrq_env (s : State) (q : Interrupts) : (s.setIrq q).env = s.env := rfl

/-! ### note -/

@[simp] theorem State.note_regs (s : State) (e : BusEvent) : (s.note e).regs = s.regs := rfl
@[simp] theorem State.note_sp (s : State) (e : BusEvent) : (s.note e).sp = s.sp := rfl
@[simp] theorem State.note_pc (s : State) (e : BusEvent) : (s.note e).pc = s.pc := rfl
@[simp] theorem State.note_flags (s : State) (e : BusEvent) : (s.note e).flags = s.flags := rfl
@[simp] theorem State.note_irq (s : State) (e : BusEvent) : (s.note e).irq = s.irq := rfl
@[simp] theorem State.note_sod (s : State) (e : BusEvent) : (s.note e).sod = s.sod := rfl
@[simp] theorem State.note_halted (s : State) (e : BusEvent) : (s.note e).halted = s.halted := rfl
@[simp] theorem State.note_mem (s : State) (e : BusEvent) : (s.note e).mem = s.mem := rfl
@[simp] theorem State.note_env_inputs (s : State) (e : BusEvent) : (s.note e).env.inputs = s.env.inputs := rfl
@[simp] theorem State.note_env_trapReq (s : State) (e : BusEvent) : (s.note e).env.trapReq = s.env.trapReq := rfl
@[simp] theorem State.note_env_bus (s : State) (e : BusEvent) : (s.note e).env.bus = e :: s.env.bus := rfl
@[simp] theorem State.note_env_draws (s : State) (e : BusEvent) : (s.note e).env.draws = s.env.draws := rfl
@[simp] theorem State.note_env_params (s : State) (e : BusEvent) : (s.note e).env.params = s.env.params := rfl

/-! ### countDraw -/

@[simp] theorem State.countDraw_regs (s : State) : (s.countDraw).regs = s.regs := rfl
@[simp] theorem State.countDraw_sp (s : State) : (s.countDraw).sp = s.sp := rfl
@[simp] theorem State.countDraw_pc (s : State) : (s.countDraw).pc = s.pc := rfl
@[simp] theorem State.countDraw_flags (s : State) : (s.countDraw).flags = s.flags := rfl
@[simp] theorem State.countDraw_irq (s : State) : (s.countDraw).irq = s.irq := rfl
@[simp] theorem State.countDraw_sod (s : State) : (s.countDraw).sod = s.sod := rfl
@[simp] theorem State.countDraw_halted (s : State) : (s.countDraw).halted = s.halted := rfl
@[simp] theorem State.countDraw_mem (s : State) : (s.countDraw).mem = s.mem := rfl
@[simp] theorem State.countDraw_env_inputs (s : State) : (s.countDraw).env.inputs = s.env.inputs := rfl
@[simp] theorem State.countDraw_env_trapReq (s : State) : (s.countDraw).env.trapReq = s.env.trapReq := rfl
@[simp] theorem State.countDraw_env_bus (s : State) : (s.countDraw).env.bus = s.env.bus := rfl
@[simp] theorem State.countDraw_env_draws (s : State) : (s.countDraw).env.draws = s.env.draws + 1 := rfl
@[simp] theorem State.countDraw_env_params (s : State) : (s.countDraw).env.params = s.env.params := rfl

/-! ### advanceInputs -/

@[simp] theorem State.advanceInputs_regs (s : State) : (s.advanceInputs).regs = s.regs := rfl
@[simp] theorem State.advanceInputs_sp (s : State) : (s.advanceInputs).sp = s.sp := rfl
@[simp] theorem State.advanceInputs_pc (s : State) : (s.advanceInputs).pc = s.pc := rfl
@[simp] theorem State.advanceInputs_flags (s : State) : (s.advanceInputs).flags = s.flags := rfl
@[simp] theorem State.advanceInputs_irq (s : State) : (s.advanceInputs).irq = s.irq := rfl
@[simp] theorem State.advanceInputs_sod (s : State) : (s.advanceInputs).sod = s.sod := rfl
@[simp] theorem State.advanceInputs_halted (s : State) : (s.advanceInputs).halted = s.halted := rfl
@[simp] theorem State.advanceInputs_mem (s : State) : (s.advanceInputs).mem = s.mem := rfl
@[simp] theorem State.advanceInputs_env_inputs (s : State) : (s.advanceInputs).env.inputs = s.env.inputs.tail := rfl
@[simp] theorem State.advanceInputs_env_trapReq (s : State) : (s.advanceInputs).env.trapReq = s.env.trapReq := rfl
@[simp] theorem State.advanceInputs_env_bus (s : State) : (s.advanceInputs).env.bus = s.env.bus := rfl
@[simp] theorem State.advanceInputs_env_draws (s : State) : (s.advanceInputs).env.draws = s.env.draws := rfl
@[simp] theorem State.advanceInputs_env_params (s : State) : (s.advanceInputs).env.params = s.env.params := rfl

/-! ### latchRequests -/

@[simp] theorem State.latchRequests_regs (s : State) : (s.latchRequests).regs = s.regs := rfl
@[simp] theorem State.latchRequests_sp (s : State) : (s.latchRequests).sp = s.sp := rfl
@[simp] theorem State.latchRequests_pc (s : State) : (s.latchRequests).pc = s.pc := rfl
@[simp] theorem State.latchRequests_flags (s : State) : (s.latchRequests).flags = s.flags := rfl
@[simp] theorem State.latchRequests_sod (s : State) : (s.latchRequests).sod = s.sod := rfl
@[simp] theorem State.latchRequests_halted (s : State) : (s.latchRequests).halted = s.halted := rfl
@[simp] theorem State.latchRequests_mem (s : State) : (s.latchRequests).mem = s.mem := rfl
@[simp] theorem State.latchRequests_env_inputs (s : State) : (s.latchRequests).env.inputs = s.env.inputs := rfl
@[simp] theorem State.latchRequests_env_trapReq (s : State) : (s.latchRequests).env.trapReq = (s.env.trapReq || s.now.trap) := rfl
@[simp] theorem State.latchRequests_env_bus (s : State) : (s.latchRequests).env.bus = s.env.bus := rfl
@[simp] theorem State.latchRequests_env_draws (s : State) : (s.latchRequests).env.draws = s.env.draws := rfl
@[simp] theorem State.latchRequests_env_params (s : State) : (s.latchRequests).env.params = s.env.params := rfl
@[simp] theorem State.latchRequests_irq_ie (s : State) : (s.latchRequests).irq.ie = s.irq.ie := rfl
@[simp] theorem State.latchRequests_irq_eiPending (s : State) : (s.latchRequests).irq.eiPending = s.irq.eiPending := rfl
@[simp] theorem State.latchRequests_irq_m55 (s : State) : (s.latchRequests).irq.m55 = s.irq.m55 := rfl
@[simp] theorem State.latchRequests_irq_m65 (s : State) : (s.latchRequests).irq.m65 = s.irq.m65 := rfl
@[simp] theorem State.latchRequests_irq_m75 (s : State) : (s.latchRequests).irq.m75 = s.irq.m75 := rfl
@[simp] theorem State.latchRequests_irq_i75 (s : State) : (s.latchRequests).irq.i75 = (s.irq.i75 || s.now.rst75Edge) := rfl
@[simp] theorem State.latchRequests_irq_trapTaken (s : State) : (s.latchRequests).irq.trapTaken = s.irq.trapTaken := rfl
@[simp] theorem State.latchRequests_irq_ieBeforeTrap (s : State) : (s.latchRequests).irq.ieBeforeTrap = s.irq.ieBeforeTrap := rfl

/-! ### driveSod -/

@[simp] theorem State.driveSod_regs (s : State) (level : Bool) : (s.driveSod level).regs = s.regs := rfl
@[simp] theorem State.driveSod_sp (s : State) (level : Bool) : (s.driveSod level).sp = s.sp := rfl
@[simp] theorem State.driveSod_pc (s : State) (level : Bool) : (s.driveSod level).pc = s.pc := rfl
@[simp] theorem State.driveSod_flags (s : State) (level : Bool) : (s.driveSod level).flags = s.flags := rfl
@[simp] theorem State.driveSod_irq (s : State) (level : Bool) : (s.driveSod level).irq = s.irq := rfl
@[simp] theorem State.driveSod_sod (s : State) (level : Bool) : (s.driveSod level).sod = level := rfl
@[simp] theorem State.driveSod_halted (s : State) (level : Bool) : (s.driveSod level).halted = s.halted := rfl
@[simp] theorem State.driveSod_mem (s : State) (level : Bool) : (s.driveSod level).mem = s.mem := rfl
@[simp] theorem State.driveSod_env_inputs (s : State) (level : Bool) : (s.driveSod level).env.inputs = s.env.inputs := rfl
@[simp] theorem State.driveSod_env_trapReq (s : State) (level : Bool) : (s.driveSod level).env.trapReq = s.env.trapReq := rfl
@[simp] theorem State.driveSod_env_draws (s : State) (level : Bool) : (s.driveSod level).env.draws = s.env.draws := rfl
@[simp] theorem State.driveSod_env_params (s : State) (level : Bool) : (s.driveSod level).env.params = s.env.params := rfl
@[simp] theorem State.driveSod_env_bus (s : State) (level : Bool) :
    (s.driveSod level).env.bus = if level = s.sod then s.env.bus else .serialOut level :: s.env.bus := rfl

/-! ### resetEvent -/

@[simp] theorem State.resetEvent_pc (s : State) : (s.resetEvent).pc = s.env.params.resetPc := rfl
@[simp] theorem State.resetEvent_sod (s : State) : (s.resetEvent).sod = false := rfl
@[simp] theorem State.resetEvent_halted (s : State) : (s.resetEvent).halted = false := rfl
@[simp] theorem State.resetEvent_mem (s : State) : (s.resetEvent).mem = s.mem := rfl
@[simp] theorem State.resetEvent_irq_ie (s : State) : (s.resetEvent).irq.ie = false := rfl
@[simp] theorem State.resetEvent_irq_eiPending (s : State) : (s.resetEvent).irq.eiPending = false := rfl
@[simp] theorem State.resetEvent_irq_m55 (s : State) : (s.resetEvent).irq.m55 = true := rfl
@[simp] theorem State.resetEvent_irq_m65 (s : State) : (s.resetEvent).irq.m65 = true := rfl
@[simp] theorem State.resetEvent_irq_m75 (s : State) : (s.resetEvent).irq.m75 = true := rfl
@[simp] theorem State.resetEvent_irq_i75 (s : State) : (s.resetEvent).irq.i75 = false := rfl
@[simp] theorem State.resetEvent_irq_trapTaken (s : State) : (s.resetEvent).irq.trapTaken = false := rfl
@[simp] theorem State.resetEvent_env_inputs (s : State) : (s.resetEvent).env.inputs = s.env.inputs := rfl
@[simp] theorem State.resetEvent_env_trapReq (s : State) : (s.resetEvent).env.trapReq = s.env.trapReq := rfl
@[simp] theorem State.resetEvent_env_bus (s : State) :
    (s.resetEvent).env.bus = if false = s.sod then s.env.bus else .serialOut false :: s.env.bus := rfl
@[simp] theorem State.resetEvent_env_params (s : State) : (s.resetEvent).env.params = s.env.params := rfl

/-! ### beginEntry -/

@[simp] theorem State.beginEntry_regs (s : State) (src : Source) : (s.beginEntry src).regs = s.regs := by cases src <;> rfl
@[simp] theorem State.beginEntry_sp (s : State) (src : Source) : (s.beginEntry src).sp = s.sp := by cases src <;> rfl
@[simp] theorem State.beginEntry_pc (s : State) (src : Source) : (s.beginEntry src).pc = s.pc := by cases src <;> rfl
@[simp] theorem State.beginEntry_flags (s : State) (src : Source) : (s.beginEntry src).flags = s.flags := by cases src <;> rfl
@[simp] theorem State.beginEntry_sod (s : State) (src : Source) : (s.beginEntry src).sod = s.sod := by cases src <;> rfl
@[simp] theorem State.beginEntry_halted (s : State) (src : Source) : (s.beginEntry src).halted = false := by cases src <;> rfl
@[simp] theorem State.beginEntry_mem (s : State) (src : Source) : (s.beginEntry src).mem = s.mem := by cases src <;> rfl
@[simp] theorem State.beginEntry_irq_ie (s : State) (src : Source) : (s.beginEntry src).irq.ie = false := by cases src <;> rfl
@[simp] theorem State.beginEntry_irq_eiPending (s : State) (src : Source) : (s.beginEntry src).irq.eiPending = false := by cases src <;> rfl
@[simp] theorem State.beginEntry_irq_m55 (s : State) (src : Source) : (s.beginEntry src).irq.m55 = s.irq.m55 := by cases src <;> rfl
@[simp] theorem State.beginEntry_irq_m65 (s : State) (src : Source) : (s.beginEntry src).irq.m65 = s.irq.m65 := by cases src <;> rfl
@[simp] theorem State.beginEntry_irq_m75 (s : State) (src : Source) : (s.beginEntry src).irq.m75 = s.irq.m75 := by cases src <;> rfl
@[simp] theorem State.beginEntry_env_inputs (s : State) (src : Source) : (s.beginEntry src).env.inputs = s.env.inputs := by cases src <;> rfl
@[simp] theorem State.beginEntry_env_bus (s : State) (src : Source) : (s.beginEntry src).env.bus = s.env.bus := by cases src <;> rfl
@[simp] theorem State.beginEntry_env_params (s : State) (src : Source) : (s.beginEntry src).env.params = s.env.params := by cases src <;> rfl

/-! ### Registers read back -/

/-- A register after a write: the new value where it was written, the old one elsewhere. -/
theorem State.reg_setReg (s : State) (r q : Reg) (v : Byte) : (s.setReg r v).reg q = if q = r then v else s.reg q := by
  cases r <;> cases q <;> rfl

@[simp] theorem State.reg_setReg_same (s : State) (r : Reg) (v : Byte) : (s.setReg r v).reg r = v := by cases r <;> rfl

@[simp] theorem State.setReg_a_regs_a (s : State) (v : Byte) : (s.setReg .a v).regs.a = v := rfl

/-- A joined pair of bytes as a number. -/
theorem toNat_joinBytes (h l : Byte) : (joinBytes h l).toNat = 256 * h.toNat + l.toNat := by
  have app : (joinBytes h l).toNat = h.toNat <<< 8 ||| l.toNat := BitVec.toNat_append h l
  rw [app, ← Nat.shiftLeft_add_eq_or_of_lt (by exact l.isLt), Nat.shiftLeft_eq]; omega

/-- The high-order byte as a number. -/
theorem toNat_highByte (w : Word) : (highByte w).toNat = w.toNat / 256 := by
  have := w.isLt
  simp [highByte, BitVec.extractLsb'_toNat, Nat.shiftRight_eq_div_pow]; omega

/-- The low-order byte as a number. -/
theorem toNat_lowByte (w : Word) : (lowByte w).toNat = w.toNat % 256 := by
  simp [lowByte, BitVec.extractLsb'_toNat]

/-- The two halves of a 16-bit quantity, joined again. -/
@[simp] theorem joinBytes_halves (v : Word) : joinBytes (highByte v) (lowByte v) = v := by
  apply BitVec.eq_of_toNat_eq; rw [toNat_joinBytes, toNat_highByte, toNat_lowByte]; omega

@[simp] theorem highByte_join (h l : Byte) : highByte (joinBytes h l) = h := by
  apply BitVec.eq_of_toNat_eq; rw [toNat_highByte, toNat_joinBytes]; omega

@[simp] theorem lowByte_join (h l : Byte) : lowByte (joinBytes h l) = l := by
  apply BitVec.eq_of_toNat_eq; rw [toNat_lowByte, toNat_joinBytes]; omega

@[simp] theorem State.pair_setPair_same (s : State) (p : Pair) (v : Word) : (s.setPair p v).pair p = v := by
  cases p <;> simp [State.setPair, State.pair]

/-- The other pairs keep their values when a pair is written. -/
theorem State.pair_setPair_other (s : State) (p q : Pair) (v : Word) (h : q ≠ p) : (s.setPair p v).pair q = s.pair q := by
  cases p <;> cases q <;> first | rfl | exact absurd rfl h

end Sys2Proof.Machine
end

