-- ==== Sys2Proof/Laws/Memory.lean ====
section
/-! SUPPORT. The laws of memory: a read after a write, the canonical form kept by every memory operation, and equal contents
being equal data. -/

namespace Sys2Proof.Machine

/-! ### Reading after a write -/

theorem Memory.read_put_same (m : Memory) (a : Nat) (v : Byte) : (m.put a v).read a = v := by
  induction m with
  | nil => simp [Memory.put, Memory.read]
  | cons e m ih =>
    obtain ⟨k, w⟩ := e
    simp only [Memory.put]
    split
    · simp [Memory.read]
    · split
      · simp [Memory.read]
      · simp [Memory.read, *]

theorem Memory.read_put_other (m : Memory) (a b : Nat) (v : Byte) (h : b ≠ a) : (m.put a v).read b = m.read b := by
  induction m with
  | nil => simp [Memory.put, Memory.read, h]
  | cons e m ih =>
    obtain ⟨k, w⟩ := e
    simp only [Memory.put]
    split
    · simp [Memory.read, h]
    · split
      · next hk => subst hk; simp [Memory.read, h]
      · simp [Memory.read, ih]

theorem Memory.read_drop_other (m : Memory) (a b : Nat) (h : b ≠ a) : (m.drop a).read b = m.read b := by
  induction m with
  | nil => rfl
  | cons e m ih =>
    obtain ⟨k, w⟩ := e
    simp only [Memory.drop]
    split
    · next hk => subst hk; simp [Memory.read, h]
    · simp [Memory.read, ih]

/-- An address below everything that is listed reads as the unlisted byte. -/
theorem Memory.read_below (m : Memory) (lo a : Nat) (h : m.wfFrom lo = true) (ha : a < lo) : m.read a = unlistedByte := by
  induction m generalizing lo with
  | nil => rfl
  | cons e m ih =>
    obtain ⟨k, w⟩ := e
    simp only [Memory.wfFrom, Bool.and_eq_true, decide_eq_true_eq] at h
    have hne : ¬ a = k := by omega
    simp only [Memory.read, hne, if_false]
    exact ih (k + 1) h.2 (by omega)

theorem Memory.read_drop_same (m : Memory) (lo a : Nat) (h : m.wfFrom lo = true) : (m.drop a).read a = unlistedByte := by
  induction m generalizing lo with
  | nil => rfl
  | cons e m ih =>
    obtain ⟨k, w⟩ := e
    simp only [Memory.wfFrom, Bool.and_eq_true, decide_eq_true_eq] at h
    simp only [Memory.drop]
    split
    · next hk => subst hk; exact Memory.read_below m (a + 1) a h.2 (by omega)
    · next hk => simp only [Memory.read, hk, if_false]; exact ih (k + 1) h.2

/-- A byte just written is read back. -/
theorem Memory.read_write_same (m : Memory) (a : Nat) (v : Byte) (h : m.wf = true) : (m.write a v).read a = v := by
  unfold Memory.write
  split
  · next hv => rw [hv]; exact Memory.read_drop_same m 0 a h
  · exact Memory.read_put_same m a v

/-- A write leaves every other address alone. -/
theorem Memory.read_write_other (m : Memory) (a b : Nat) (v : Byte) (h : b ≠ a) : (m.write a v).read b = m.read b := by
  unfold Memory.write
  split
  · exact Memory.read_drop_other m a b h
  · exact Memory.read_put_other m a b v h

/-! ### The canonical form is kept -/

theorem Memory.wfFrom_put (m : Memory) (lo a : Nat) (v : Byte) (h : m.wfFrom lo = true) (hlo : lo ≤ a) (ha : a < 65536)
    (hv : v ≠ unlistedByte) : (m.put a v).wfFrom lo = true := by
  induction m generalizing lo with
  | nil => simp [Memory.put, Memory.wfFrom, hlo, ha, hv]
  | cons e m ih =>
    obtain ⟨k, w⟩ := e
    simp only [Memory.wfFrom, Bool.and_eq_true, decide_eq_true_eq] at h
    obtain ⟨⟨⟨h1, h2⟩, h3⟩, h4⟩ := h
    simp only [Memory.put]
    split
    · next hk => simp [Memory.wfFrom, hlo, ha, hv, h2, h3, h4]; omega
    · split
      · next hk => subst hk; simp [Memory.wfFrom, hlo, ha, hv, h4]
      · next hk hk' => simp [Memory.wfFrom, h1, h2, h3, ih (k + 1) h4 (by omega)]

theorem Memory.wfFrom_mono (m : Memory) (lo lo' : Nat) (h : m.wfFrom lo' = true) (hlo : lo ≤ lo') : m.wfFrom lo = true := by
  cases m with
  | nil => rfl
  | cons e m =>
    obtain ⟨k, w⟩ := e
    simp only [Memory.wfFrom, Bool.and_eq_true, decide_eq_true_eq] at h ⊢
    exact ⟨⟨⟨by omega, h.1.1.2⟩, h.1.2⟩, h.2⟩

theorem Memory.wfFrom_drop (m : Memory) (lo a : Nat) (h : m.wfFrom lo = true) : (m.drop a).wfFrom lo = true := by
  induction m generalizing lo with
  | nil => rfl
  | cons e m ih =>
    obtain ⟨k, w⟩ := e
    simp only [Memory.wfFrom, Bool.and_eq_true, decide_eq_true_eq] at h
    obtain ⟨⟨⟨h1, h2⟩, h3⟩, h4⟩ := h
    simp only [Memory.drop]
    split
    · exact Memory.wfFrom_mono m lo (k + 1) h4 (by omega)
    · simp [Memory.wfFrom, h1, h2, h3, ih (k + 1) h4]

/-- A write keeps the canonical form. -/
theorem Memory.wf_write (m : Memory) (a : Nat) (v : Byte) (h : m.wf = true) (ha : a < 65536) : (m.write a v).wf = true := by
  unfold Memory.write
  split
  · exact Memory.wfFrom_drop m 0 a h
  · next hv => exact Memory.wfFrom_put m 0 a v h (Nat.zero_le a) ha hv

/-- The memory after reset has the canonical form. -/
theorem reset_mem_wf : State.reset.mem.wf = true := rfl

/-! ### Equal contents are equal data -/

theorem Memory.eq_of_read_from (m n : Memory) (lo : Nat) (hm : m.wfFrom lo = true) (hn : n.wfFrom lo = true)
    (h : ∀ a, m.read a = n.read a) : m = n := by
  induction m generalizing n lo with
  | nil =>
    cases n with
    | nil => rfl
    | cons e n =>
      obtain ⟨k, w⟩ := e
      simp only [Memory.wfFrom, Bool.and_eq_true, decide_eq_true_eq] at hn
      exact absurd (by simpa [Memory.read] using (h k).symm) hn.1.2
  | cons e m ih =>
    obtain ⟨k, v⟩ := e
    simp only [Memory.wfFrom, Bool.and_eq_true, decide_eq_true_eq] at hm
    cases n with
    | nil => exact absurd (by simpa [Memory.read] using h k) hm.1.2
    | cons e' n =>
      obtain ⟨k', v'⟩ := e'
      simp only [Memory.wfFrom, Bool.and_eq_true, decide_eq_true_eq] at hn
      have hk : k = k' := by
        rcases Nat.lt_trichotomy k k' with hlt | heq | hgt
        · have h1 := h k
          have h2 : ¬ k = k' := by omega
          simp only [Memory.read, if_true, h2, if_false] at h1
          rw [Memory.read_below n (k' + 1) k hn.2 (by omega)] at h1
          exact absurd h1 hm.1.2
        · exact heq
        · have h1 := h k'
          have h2 : ¬ k' = k := by omega
          simp only [Memory.read, if_true, h2, if_false] at h1
          rw [Memory.read_below m (k + 1) k' hm.2 (by omega)] at h1
          exact absurd h1.symm hn.1.2
      subst hk
      have hv : v = v' := by simpa [Memory.read] using h k
      subst hv
      have tails : m = n := by
        refine ih n (k + 1) hm.2 hn.2 (fun a => ?_)
        by_cases ha : a = k
        · subst ha
          rw [Memory.read_below m (a + 1) a hm.2 (by omega), Memory.read_below n (a + 1) a hn.2 (by omega)]
        · simpa [Memory.read, ha] using h a
      rw [tails]

/-- Two memories in canonical form with the same contents are the same list. -/
theorem Memory.eq_of_read (m n : Memory) (hm : m.wf = true) (hn : n.wf = true) (h : ∀ a, m.read a = n.read a) : m = n :=
  Memory.eq_of_read_from m n 0 hm hn h

/-! ### The same, through a state and a 16-bit address -/

theorem word_toNat_ne {a b : Word} (h : b ≠ a) : b.toNat ≠ a.toNat := fun e => h (BitVec.eq_of_toNat_eq e)

/-- A store changes no other address. -/
theorem State.byteAt_store_other (s : State) (a b : Word) (v : Byte) (h : b ≠ a) : (s.store a v).byteAt b = s.byteAt b := by
  unfold State.store State.byteAt
  split
  · exact Memory.read_write_other _ _ _ _ (word_toNat_ne h)
  · rfl

/-- A store into RAM is read back. -/
theorem State.byteAt_store_same (s : State) (a : Word) (v : Byte) (hm : s.mem.wf = true) (hr : s.kindAt a = .ram) :
    (s.store a v).byteAt a = v := by
  simp only [State.store, hr, State.byteAt]
  exact Memory.read_write_same _ _ _ hm

/-- A store outside RAM changes nothing. -/
theorem State.store_not_ram (s : State) (a : Word) (v : Byte) (hr : s.kindAt a ≠ .ram) : s.store a v = s := by
  unfold State.store
  split
  · contradiction
  · rfl

/-- A store keeps the canonical form. -/
theorem State.wf_store (s : State) (a : Word) (v : Byte) (h : s.mem.wf = true) : (s.store a v).mem.wf = true := by
  unfold State.store
  split
  · exact Memory.wf_write _ _ _ h a.isLt
  · exact h

end Sys2Proof.Machine
end

