-- ==== Sys2Proof/Laws/Ops.lean ====
section
/-! SUPPORT. For each shared operation, once, everything it can do: what it leaves alone (one lemma a field), what it writes,
and what a step can be. -/

namespace Sys2Proof.Machine

/-! ### store -/

@[simp] theorem State.store_regs (s : State) (a : Word) (v : Byte) : (s.store a v).regs = s.regs := by
  unfold State.store; split <;> rfl
@[simp] theorem State.store_sp (s : State) (a : Word) (v : Byte) : (s.store a v).sp = s.sp := by
  unfold State.store; split <;> rfl
@[simp] theorem State.store_pc (s : State) (a : Word) (v : Byte) : (s.store a v).pc = s.pc := by
  unfold State.store; split <;> rfl
@[simp] theorem State.store_flags (s : State) (a : Word) (v : Byte) : (s.store a v).flags = s.flags := by
  unfold State.store; split <;> rfl
@[simp] theorem State.store_irq (s : State) (a : Word) (v : Byte) : (s.store a v).irq = s.irq := by
  unfold State.store; split <;> rfl
@[simp] theorem State.store_sod (s : State) (a : Word) (v : Byte) : (s.store a v).sod = s.sod := by
  unfold State.store; split <;> rfl
@[simp] theorem State.store_halted (s : State) (a : Word) (v : Byte) : (s.store a v).halted = s.halted := by
  unfold State.store; split <;> rfl
@[simp] theorem State.store_env (s : State) (a : Word) (v : Byte) : (s.store a v).env = s.env := by
  unfold State.store; split <;> rfl

/-! ### writeByte -/

@[simp] theorem State.writeByte_regs (s : State) (a : Word) (v : Byte) : (s.writeByte a v).regs = s.regs := by
  simp [State.writeByte]
@[simp] theorem State.writeByte_sp (s : State) (a : Word) (v : Byte) : (s.writeByte a v).sp = s.sp := by
  simp [State.writeByte]
@[simp] theorem State.writeByte_pc (s : State) (a : Word) (v : Byte) : (s.writeByte a v).pc = s.pc := by
  simp [State.writeByte]
@[simp] theorem State.writeByte_flags (s : State) (a : Word) (v : Byte) : (s.writeByte a v).flags = s.flags := by
  simp [State.writeByte]
@[simp] theorem State.writeByte_irq (s : State) (a : Word) (v : Byte) : (s.writeByte a v).irq = s.irq := by
  simp [State.writeByte]
@[simp] theorem State.writeByte_sod (s : State) (a : Word) (v : Byte) : (s.writeByte a v).sod = s.sod := by
  simp [State.writeByte]
@[simp] theorem State.writeByte_halted (s : State) (a : Word) (v : Byte) : (s.writeByte a v).halted = s.halted := by
  simp [State.writeByte]
@[simp] theorem State.writeByte_env_inputs (s : State) (a : Word) (v : Byte) : (s.writeByte a v).env.inputs = s.env.inputs := by
  simp [State.writeByte]
@[simp] theorem State.writeByte_env_trapReq (s : State) (a : Word) (v : Byte) : (s.writeByte a v).env.trapReq = s.env.trapReq := by
  simp [State.writeByte]
@[simp] theorem State.writeByte_env_params (s : State) (a : Word) (v : Byte) : (s.writeByte a v).env.params = s.env.params := by
  simp [State.writeByte]
@[simp] theorem State.writeByte_env_bus (s : State) (a : Word) (v : Byte) : (s.writeByte a v).env.bus = .memWrite a v :: s.env.bus := by
  simp [State.writeByte]
@[simp] theorem State.writeByte_env_draws (s : State) (a : Word) (v : Byte) : (s.writeByte a v).env.draws = s.env.draws := by
  simp [State.writeByte]
@[simp] theorem State.writeByte_mem (s : State) (a : Word) (v : Byte) : (s.writeByte a v).mem = (s.store a v).mem := by
  simp [State.writeByte]

/-- All that a write does: RAM at the address takes the byte, the environment sees the access. -/
theorem State.writeByte_eq (s : State) (a : Word) (v : Byte) :
    s.writeByte a v =
      { s with mem := if s.kindAt a = .ram then s.mem.write a.toNat v else s.mem
               env.bus := .memWrite a v :: s.env.bus } := by
  unfold State.writeByte State.store
  split
  · next h => simp [State.note, h]
  · next h => rw [if_neg h]; rfl

@[simp] theorem State.kindAt_writeByte (s : State) (a b : Word) (v : Byte) : (s.writeByte a v).kindAt b = s.kindAt b := by
  simp [State.kindAt]

/-- A write changes no other address. -/
theorem State.byteAt_writeByte_other (s : State) (a b : Word) (v : Byte) (h : b ≠ a) :
    (s.writeByte a v).byteAt b = s.byteAt b := State.byteAt_store_other s a b v h

/-- A write into RAM is read back. -/
theorem State.byteAt_writeByte_same (s : State) (a : Word) (v : Byte) (hm : s.mem.wf = true) (hr : s.kindAt a = .ram) :
    (s.writeByte a v).byteAt a = v := State.byteAt_store_same s a v hm hr

/-- A write outside RAM changes no content. -/
theorem State.byteAt_writeByte_not_ram (s : State) (a b : Word) (v : Byte) (hr : s.kindAt a ≠ .ram) :
    (s.writeByte a v).byteAt b = s.byteAt b := by
  show (s.store a v).byteAt b = s.byteAt b
  rw [State.store_not_ram s a v hr]

/-- A write keeps the canonical form. -/
theorem State.wf_writeByte (s : State) (a : Word) (v : Byte) (h : s.mem.wf = true) : (s.writeByte a v).mem.wf = true :=
  State.wf_store s a v h

/-! ### noteRead -/

@[simp] theorem State.noteRead_regs (s : State) (a : Word) : (s.noteRead a).regs = s.regs := by
  unfold State.noteRead State.drawIfOpen; split <;> rfl
@[simp] theorem State.noteRead_sp (s : State) (a : Word) : (s.noteRead a).sp = s.sp := by
  unfold State.noteRead State.drawIfOpen; split <;> rfl
@[simp] theorem State.noteRead_pc (s : State) (a : Word) : (s.noteRead a).pc = s.pc := by
  unfold State.noteRead State.drawIfOpen; split <;> rfl
@[simp] theorem State.noteRead_flags (s : State) (a : Word) : (s.noteRead a).flags = s.flags := by
  unfold State.noteRead State.drawIfOpen; split <;> rfl
@[simp] theorem State.noteRead_irq (s : State) (a : Word) : (s.noteRead a).irq = s.irq := by
  unfold State.noteRead State.drawIfOpen; split <;> rfl
@[simp] theorem State.noteRead_sod (s : State) (a : Word) : (s.noteRead a).sod = s.sod := by
  unfold State.noteRead State.drawIfOpen; split <;> rfl
@[simp] theorem State.noteRead_halted (s : State) (a : Word) : (s.noteRead a).halted = s.halted := by
  unfold State.noteRead State.drawIfOpen; split <;> rfl
@[simp] theorem State.noteRead_env_inputs (s : State) (a : Word) : (s.noteRead a).env.inputs = s.env.inputs := by
  unfold State.noteRead State.drawIfOpen; split <;> rfl
@[simp] theorem State.noteRead_env_trapReq (s : State) (a : Word) : (s.noteRead a).env.trapReq = s.env.trapReq := by
  unfold State.noteRead State.drawIfOpen; split <;> rfl
@[simp] theorem State.noteRead_env_params (s : State) (a : Word) : (s.noteRead a).env.params = s.env.params := by
  unfold State.noteRead State.drawIfOpen; split <;> rfl
@[simp] theorem State.noteRead_mem (s : State) (a : Word) : (s.noteRead a).mem = s.mem := by
  unfold State.noteRead State.drawIfOpen; split <;> rfl
@[simp] theorem State.noteRead_env_bus (s : State) (a : Word) : (s.noteRead a).env.bus = .memRead a (s.peek a) :: s.env.bus := by
  unfold State.noteRead State.drawIfOpen; split <;> rfl

/-- A read of RAM or ROM draws nothing. -/
theorem State.noteRead_draws (s : State) (a : Word) (h : s.kindAt a ≠ .unpopulated) : (s.noteRead a).env.draws = s.env.draws := by
  unfold State.noteRead State.drawIfOpen
  split
  · contradiction
  · rfl

@[simp] theorem State.byteAt_noteRead (s : State) (a b : Word) : (s.noteRead a).byteAt b = s.byteAt b := by
  simp [State.byteAt]

@[simp] theorem State.kindAt_noteRead (s : State) (a b : Word) : (s.noteRead a).kindAt b = s.kindAt b := by
  simp [State.kindAt]

@[simp] theorem State.reg_noteRead (s : State) (a : Word) (r : Reg) : (s.noteRead a).reg r = s.reg r := by
  cases r <;> simp [State.reg]

@[simp] theorem State.pair_noteRead (s : State) (a : Word) (p : Pair) : (s.noteRead a).pair p = s.pair p := by
  cases p <;> simp [State.pair]

/-! ### noteFetch -/

@[simp] theorem State.noteFetch_regs (s : State) (a : Word) : (s.noteFetch a).regs = s.regs := by
  unfold State.noteFetch State.drawIfOpen; split <;> rfl
@[simp] theorem State.noteFetch_sp (s : State) (a : Word) : (s.noteFetch a).sp = s.sp := by
  unfold State.noteFetch State.drawIfOpen; split <;> rfl
@[simp] theorem State.noteFetch_pc (s : State) (a : Word) : (s.noteFetch a).pc = s.pc := by
  unfold State.noteFetch State.drawIfOpen; split <;> rfl
@[simp] theorem State.noteFetch_flags (s : State) (a : Word) : (s.noteFetch a).flags = s.flags := by
  unfold State.noteFetch State.drawIfOpen; split <;> rfl
@[simp] theorem State.noteFetch_irq (s : State) (a : Word) : (s.noteFetch a).irq = s.irq := by
  unfold State.noteFetch State.drawIfOpen; split <;> rfl
@[simp] theorem State.noteFetch_sod (s : State) (a : Word) : (s.noteFetch a).sod = s.sod := by
  unfold State.noteFetch State.drawIfOpen; split <;> rfl
@[simp] theorem State.noteFetch_halted (s : State) (a : Word) : (s.noteFetch a).halted = s.halted := by
  unfold State.noteFetch State.drawIfOpen; split <;> rfl
@[simp] theorem State.noteFetch_env_inputs (s : State) (a : Word) : (s.noteFetch a).env.inputs = s.env.inputs := by
  unfold State.noteFetch State.drawIfOpen; split <;> rfl
@[simp] theorem State.noteFetch_env_trapReq (s : State) (a : Word) : (s.noteFetch a).env.trapReq = s.env.trapReq := by
  unfold State.noteFetch State.drawIfOpen; split <;> rfl
@[simp] theorem State.noteFetch_env_params (s : State) (a : Word) : (s.noteFetch a).env.params = s.env.params := by
  unfold State.noteFetch State.drawIfOpen; split <;> rfl
@[simp] theorem State.noteFetch_mem (s : State) (a : Word) : (s.noteFetch a).mem = s.mem := by
  unfold State.noteFetch State.drawIfOpen; split <;> rfl
@[simp] theorem State.noteFetch_env_bus (s : State) (a : Word) : (s.noteFetch a).env.bus = .fetch a (s.peek a) :: s.env.bus := by
  unfold State.noteFetch State.drawIfOpen; split <;> rfl

/-- A read of RAM or ROM draws nothing. -/
theorem State.noteFetch_draws (s : State) (a : Word) (h : s.kindAt a ≠ .unpopulated) : (s.noteFetch a).env.draws = s.env.draws := by
  unfold State.noteFetch State.drawIfOpen
  split
  · contradiction
  · rfl

@[simp] theorem State.byteAt_noteFetch (s : State) (a b : Word) : (s.noteFetch a).byteAt b = s.byteAt b := by
  simp [State.byteAt]

@[simp] theorem State.kindAt_noteFetch (s : State) (a b : Word) : (s.noteFetch a).kindAt b = s.kindAt b := by
  simp [State.kindAt]

@[simp] theorem State.reg_noteFetch (s : State) (a : Word) (r : Reg) : (s.noteFetch a).reg r = s.reg r := by
  cases r <;> simp [State.reg]

@[simp] theorem State.pair_noteFetch (s : State) (a : Word) (p : Pair) : (s.noteFetch a).pair p = s.pair p := by
  cases p <;> simp [State.pair]

/-- A read of RAM or ROM returns the content. -/
theorem State.peek_populated (s : State) (a : Word) (h : s.kindAt a ≠ .unpopulated) : s.peek a = s.byteAt a := by
  unfold State.peek
  split
  · contradiction
  · rfl

/-- All that a read of RAM or ROM does: the environment sees it. -/
theorem State.noteRead_populated (s : State) (a : Word) (h : s.kindAt a ≠ .unpopulated) :
    s.noteRead a = s.note (.memRead a (s.byteAt a)) := by
  rw [State.noteRead, State.peek_populated s a h, State.drawIfOpen]
  split
  · contradiction
  · rfl

/-- All that an opcode fetch from RAM or ROM does: the environment sees it. -/
theorem State.noteFetch_populated (s : State) (a : Word) (h : s.kindAt a ≠ .unpopulated) :
    s.noteFetch a = s.note (.fetch a (s.byteAt a)) := by
  rw [State.noteFetch, State.peek_populated s a h, State.drawIfOpen]
  split
  · contradiction
  · rfl

/-! ### The serial output -/

/-- Writing SOD does nothing, or changes it and makes the one output event of that change. -/
theorem State.driveSod_cases (s : State) (level : Bool) :
    (level = s.sod ∧ s.driveSod level = s) ∨
    (level ≠ s.sod ∧ s.driveSod level = { s.note (.serialOut level) with sod := level }) := by
  unfold State.driveSod
  by_cases h : level = s.sod
  · exact .inl ⟨h, by simp [h]⟩
  · exact .inr ⟨h, by simp [h, State.note]⟩

/-! ### The stack -/

@[simp] theorem State.push16_regs (s : State) (v : Word) : (s.push16 v).regs = s.regs := by
  simp [State.push16]
@[simp] theorem State.push16_sp (s : State) (v : Word) : (s.push16 v).sp = s.sp - 2 := by
  simp [State.push16]
@[simp] theorem State.push16_pc (s : State) (v : Word) : (s.push16 v).pc = s.pc := by
  simp [State.push16]
@[simp] theorem State.push16_flags (s : State) (v : Word) : (s.push16 v).flags = s.flags := by
  simp [State.push16]
@[simp] theorem State.push16_irq (s : State) (v : Word) : (s.push16 v).irq = s.irq := by
  simp [State.push16]
@[simp] theorem State.push16_sod (s : State) (v : Word) : (s.push16 v).sod = s.sod := by
  simp [State.push16]
@[simp] theorem State.push16_halted (s : State) (v : Word) : (s.push16 v).halted = s.halted := by
  simp [State.push16]
@[simp] theorem State.push16_env_inputs (s : State) (v : Word) : (s.push16 v).env.inputs = s.env.inputs := by
  simp [State.push16]
@[simp] theorem State.push16_env_trapReq (s : State) (v : Word) : (s.push16 v).env.trapReq = s.env.trapReq := by
  simp [State.push16]
@[simp] theorem State.push16_env_params (s : State) (v : Word) : (s.push16 v).env.params = s.env.params := by
  simp [State.push16]
@[simp] theorem State.push16_env_bus (s : State) (v : Word) : (s.push16 v).env.bus = .memWrite (s.sp - 2) (lowByte v) :: .memWrite (s.sp - 1) (highByte v) :: s.env.bus := by
  simp [State.push16]
@[simp] theorem State.push16_env_draws (s : State) (v : Word) : (s.push16 v).env.draws = s.env.draws := by
  simp [State.push16]

@[simp] theorem State.push16_mem (s : State) (v : Word) :
    (s.push16 v).mem = ((s.writeByte (s.sp - 1) (highByte v)).writeByte (s.sp - 2) (lowByte v)).mem := rfl

/-- A push stores at SP - 1 and SP - 2 and nowhere else. -/
theorem State.byteAt_push16_other (s : State) (v a : Word) (h1 : a ≠ s.sp - 1) (h2 : a ≠ s.sp - 2) :
    (s.push16 v).byteAt a = s.byteAt a := by
  show ((s.writeByte (s.sp - 1) (highByte v)).writeByte (s.sp - 2) (lowByte v)).byteAt a = s.byteAt a
  rw [State.byteAt_writeByte_other _ _ _ _ h2, State.byteAt_writeByte_other _ _ _ _ h1]

/-- The low-order byte of a push lies at SP - 2. -/
theorem State.byteAt_push16_low (s : State) (v : Word) (hm : s.mem.wf = true) (hr : s.kindAt (s.sp - 2) = .ram) :
    (s.push16 v).byteAt (s.sp - 2) = lowByte v := by
  show ((s.writeByte (s.sp - 1) (highByte v)).writeByte (s.sp - 2) (lowByte v)).byteAt (s.sp - 2) = lowByte v
  exact State.byteAt_writeByte_same _ _ _ (State.wf_writeByte _ _ _ hm) (by simpa using hr)

/-- The high-order byte of a push lies at SP - 1. -/
theorem State.byteAt_push16_high (s : State) (v : Word) (hm : s.mem.wf = true) (hr : s.kindAt (s.sp - 1) = .ram) :
    (s.push16 v).byteAt (s.sp - 1) = highByte v := by
  show ((s.writeByte (s.sp - 1) (highByte v)).writeByte (s.sp - 2) (lowByte v)).byteAt (s.sp - 1) = highByte v
  rw [State.byteAt_writeByte_other _ _ _ _ (by bv_omega)]
  exact State.byteAt_writeByte_same _ _ _ hm hr

/-- A push keeps the canonical form. -/
theorem State.wf_push16 (s : State) (v : Word) (h : s.mem.wf = true) : (s.push16 v).mem.wf = true :=
  State.wf_writeByte _ _ _ (State.wf_writeByte _ _ _ h)

/-! ### Pops -/

@[simp] theorem State.dropStack_regs (s : State) : (s.dropStack).regs = s.regs := by
  simp [State.dropStack, State.readStack]
@[simp] theorem State.dropStack_sp (s : State) : (s.dropStack).sp = s.sp + 2 := by
  simp [State.dropStack, State.readStack]
@[simp] theorem State.dropStack_pc (s : State) : (s.dropStack).pc = s.pc := by
  simp [State.dropStack, State.readStack]
@[simp] theorem State.dropStack_flags (s : State) : (s.dropStack).flags = s.flags := by
  simp [State.dropStack, State.readStack]
@[simp] theorem State.dropStack_irq (s : State) : (s.dropStack).irq = s.irq := by
  simp [State.dropStack, State.readStack]
@[simp] theorem State.dropStack_sod (s : State) : (s.dropStack).sod = s.sod := by
  simp [State.dropStack, State.readStack]
@[simp] theorem State.dropStack_halted (s : State) : (s.dropStack).halted = s.halted := by
  simp [State.dropStack, State.readStack]
@[simp] theorem State.dropStack_env_inputs (s : State) : (s.dropStack).env.inputs = s.env.inputs := by
  simp [State.dropStack, State.readStack]
@[simp] theorem State.dropStack_env_trapReq (s : State) : (s.dropStack).env.trapReq = s.env.trapReq := by
  simp [State.dropStack, State.readStack]
@[simp] theorem State.dropStack_env_params (s : State) : (s.dropStack).env.params = s.env.params := by
  simp [State.dropStack, State.readStack]
@[simp] theorem State.dropStack_mem (s : State) : (s.dropStack).mem = s.mem := by
  simp [State.dropStack, State.readStack]

/-! ### CALL -/

@[simp] theorem State.callTo_regs (s : State) (target : Word) : (s.callTo target).regs = s.regs := by
  simp [State.callTo]
@[simp] theorem State.callTo_sp (s : State) (target : Word) : (s.callTo target).sp = s.sp - 2 := by
  simp [State.callTo]
@[simp] theorem State.callTo_pc (s : State) (target : Word) : (s.callTo target).pc = target := by
  simp [State.callTo]
@[simp] theorem State.callTo_flags (s : State) (target : Word) : (s.callTo target).flags = s.flags := by
  simp [State.callTo]
@[simp] theorem State.callTo_irq (s : State) (target : Word) : (s.callTo target).irq = s.irq := by
  simp [State.callTo]
@[simp] theorem State.callTo_sod (s : State) (target : Word) : (s.callTo target).sod = s.sod := by
  simp [State.callTo]
@[simp] theorem State.callTo_halted (s : State) (target : Word) : (s.callTo target).halted = s.halted := by
  simp [State.callTo]
@[simp] theorem State.callTo_env_inputs (s : State) (target : Word) : (s.callTo target).env.inputs = s.env.inputs := by
  simp [State.callTo]
@[simp] theorem State.callTo_env_trapReq (s : State) (target : Word) : (s.callTo target).env.trapReq = s.env.trapReq := by
  simp [State.callTo]
@[simp] theorem State.callTo_env_params (s : State) (target : Word) : (s.callTo target).env.params = s.env.params := by
  simp [State.callTo]
@[simp] theorem State.callTo_env_draws (s : State) (target : Word) : (s.callTo target).env.draws = s.env.draws := by
  simp [State.callTo]

@[simp] theorem State.callTo_mem (s : State) (target : Word) : (s.callTo target).mem = (s.push16 s.pc).mem := rfl

/-- A call stores at SP - 1 and SP - 2 and nowhere else. -/
theorem State.byteAt_callTo_other (s : State) (target a : Word) (h1 : a ≠ s.sp - 1) (h2 : a ≠ s.sp - 2) :
    (s.callTo target).byteAt a = s.byteAt a := State.byteAt_push16_other s s.pc a h1 h2

/-- A call keeps the canonical form. -/
theorem State.wf_callTo (s : State) (target : Word) (h : s.mem.wf = true) : (s.callTo target).mem.wf = true :=
  State.wf_push16 s s.pc h

/-! ### RET -/

@[simp] theorem State.return16_regs (s : State) : (s.return16).regs = s.regs := by
  simp [State.return16]
@[simp] theorem State.return16_sp (s : State) : (s.return16).sp = s.sp + 2 := by
  simp [State.return16]
@[simp] theorem State.return16_pc (s : State) : (s.return16).pc = joinBytes s.popHigh s.popLow := by
  simp [State.return16]
@[simp] theorem State.return16_flags (s : State) : (s.return16).flags = s.flags := by
  simp [State.return16]
@[simp] theorem State.return16_irq (s : State) : (s.return16).irq = s.irq := by
  simp [State.return16]
@[simp] theorem State.return16_sod (s : State) : (s.return16).sod = s.sod := by
  simp [State.return16]
@[simp] theorem State.return16_halted (s : State) : (s.return16).halted = s.halted := by
  simp [State.return16]
@[simp] theorem State.return16_env_inputs (s : State) : (s.return16).env.inputs = s.env.inputs := by
  simp [State.return16]
@[simp] theorem State.return16_env_trapReq (s : State) : (s.return16).env.trapReq = s.env.trapReq := by
  simp [State.return16]
@[simp] theorem State.return16_env_params (s : State) : (s.return16).env.params = s.env.params := by
  simp [State.return16]
@[simp] theorem State.return16_mem (s : State) : (s.return16).mem = s.mem := by
  simp [State.return16]

/-! ### Interrupts -/

/-- All that an acknowledge can do: RST n or CALL is executed, anything else is refused. -/
theorem State.acknowledge_cases (s t : State) (h : s.acknowledge = .next t) :
    (s.now.inta1 &&& 0xC7 = 0xC7 ∧ t = (s.note (.inta s.now.inta1)).restart (fieldDDD s.now.inta1)) ∨
    (s.now.inta1 = 0xCD ∧
      t = (((s.note (.inta s.now.inta1)).note (.inta s.now.inta2)).note (.inta s.now.inta3)).callTo
        (joinBytes s.now.inta3 s.now.inta2)) := by
  unfold State.acknowledge at h
  simp only [] at h
  split at h
  · next hc => exact .inl ⟨hc, by cases h; rfl⟩
  · split at h
    · next hc => exact .inr ⟨hc, by cases h; rfl⟩
    · split at h <;> cases h

/-- All that taking an interrupt can do: a vectored call, or an acknowledge. -/
theorem State.takeInterrupt_cases (s t : State) (src : Source) (h : s.takeInterrupt src = .next t) :
    (∃ v, vectorOf s.env.params src = some v ∧ t = (s.beginEntry src).callTo v) ∨
    (vectorOf s.env.params src = none ∧ (s.beginEntry src).acknowledge = .next t) := by
  unfold State.takeInterrupt at h
  split at h
  · next v hv => exact .inl ⟨v, hv, by cases h; rfl⟩
  · next hv => exact .inr ⟨hv, h⟩

/-- The source taken is acceptable. -/
theorem State.winner_acceptable (s : State) (src : Source) (h : s.winner = some src) : s.acceptable src = true :=
  List.find?_some h

/-! ### The fetch -/

/-- The length of an instruction is 1, 2 or 3. -/
theorem opLength_cases (op : Byte) : opLength op = 1 ∨ opLength op = 2 ∨ opLength op = 3 := by
  unfold opLength
  split
  · exact .inr (.inr rfl)
  · split
    · exact .inr (.inl rfl)
    · exact .inl rfl

/-! ### fetchOpcode -/

@[simp] theorem State.fetchOpcode_regs (s : State) : (s.fetchOpcode).regs = s.regs := by
  simp [State.fetchOpcode]
@[simp] theorem State.fetchOpcode_sp (s : State) : (s.fetchOpcode).sp = s.sp := by
  simp [State.fetchOpcode]
@[simp] theorem State.fetchOpcode_pc (s : State) : (s.fetchOpcode).pc = s.pc + 1 := by
  simp [State.fetchOpcode]
@[simp] theorem State.fetchOpcode_flags (s : State) : (s.fetchOpcode).flags = s.flags := by
  simp [State.fetchOpcode]
@[simp] theorem State.fetchOpcode_irq (s : State) : (s.fetchOpcode).irq = s.irq := by
  simp [State.fetchOpcode]
@[simp] theorem State.fetchOpcode_sod (s : State) : (s.fetchOpcode).sod = s.sod := by
  simp [State.fetchOpcode]
@[simp] theorem State.fetchOpcode_halted (s : State) : (s.fetchOpcode).halted = s.halted := by
  simp [State.fetchOpcode]
@[simp] theorem State.fetchOpcode_env_inputs (s : State) : (s.fetchOpcode).env.inputs = s.env.inputs := by
  simp [State.fetchOpcode]
@[simp] theorem State.fetchOpcode_env_trapReq (s : State) : (s.fetchOpcode).env.trapReq = s.env.trapReq := by
  simp [State.fetchOpcode]
@[simp] theorem State.fetchOpcode_env_params (s : State) : (s.fetchOpcode).env.params = s.env.params := by
  simp [State.fetchOpcode]
@[simp] theorem State.fetchOpcode_mem (s : State) : (s.fetchOpcode).mem = s.mem := by
  simp [State.fetchOpcode]

/-! ### fetchOperand -/

@[simp] theorem State.fetchOperand_regs (s : State) : (s.fetchOperand).regs = s.regs := by
  simp [State.fetchOperand]
@[simp] theorem State.fetchOperand_sp (s : State) : (s.fetchOperand).sp = s.sp := by
  simp [State.fetchOperand]
@[simp] theorem State.fetchOperand_pc (s : State) : (s.fetchOperand).pc = s.pc + 1 := by
  simp [State.fetchOperand]
@[simp] theorem State.fetchOperand_flags (s : State) : (s.fetchOperand).flags = s.flags := by
  simp [State.fetchOperand]
@[simp] theorem State.fetchOperand_irq (s : State) : (s.fetchOperand).irq = s.irq := by
  simp [State.fetchOperand]
@[simp] theorem State.fetchOperand_sod (s : State) : (s.fetchOperand).sod = s.sod := by
  simp [State.fetchOperand]
@[simp] theorem State.fetchOperand_halted (s : State) : (s.fetchOperand).halted = s.halted := by
  simp [State.fetchOperand]
@[simp] theorem State.fetchOperand_env_inputs (s : State) : (s.fetchOperand).env.inputs = s.env.inputs := by
  simp [State.fetchOperand]
@[simp] theorem State.fetchOperand_env_trapReq (s : State) : (s.fetchOperand).env.trapReq = s.env.trapReq := by
  simp [State.fetchOperand]
@[simp] theorem State.fetchOperand_env_params (s : State) : (s.fetchOperand).env.params = s.env.params := by
  simp [State.fetchOperand]
@[simp] theorem State.fetchOperand_mem (s : State) : (s.fetchOperand).mem = s.mem := by
  simp [State.fetchOperand]

/-! ### skipOperand -/

@[simp] theorem State.skipOperand_regs (s : State) : (s.skipOperand).regs = s.regs := rfl
@[simp] theorem State.skipOperand_sp (s : State) : (s.skipOperand).sp = s.sp := rfl
@[simp] theorem State.skipOperand_pc (s : State) : (s.skipOperand).pc = s.pc + 1 := rfl
@[simp] theorem State.skipOperand_flags (s : State) : (s.skipOperand).flags = s.flags := rfl
@[simp] theorem State.skipOperand_irq (s : State) : (s.skipOperand).irq = s.irq := rfl
@[simp] theorem State.skipOperand_sod (s : State) : (s.skipOperand).sod = s.sod := rfl
@[simp] theorem State.skipOperand_halted (s : State) : (s.skipOperand).halted = s.halted := rfl
@[simp] theorem State.skipOperand_env (s : State) : (s.skipOperand).env = s.env := rfl
@[simp] theorem State.skipOperand_mem (s : State) : (s.skipOperand).mem = s.mem := rfl

/-! ### The fetched state: only pc, the bus log and the draw counter differ -/

@[simp] theorem State.fetch_regs (s : State) : s.fetch.2.regs = s.regs := by
  unfold State.fetch; simp only []; split <;> simp; split <;> simp
@[simp] theorem State.fetch_sp (s : State) : s.fetch.2.sp = s.sp := by
  unfold State.fetch; simp only []; split <;> simp; split <;> simp
@[simp] theorem State.fetch_flags (s : State) : s.fetch.2.flags = s.flags := by
  unfold State.fetch; simp only []; split <;> simp; split <;> simp
@[simp] theorem State.fetch_irq (s : State) : s.fetch.2.irq = s.irq := by
  unfold State.fetch; simp only []; split <;> simp; split <;> simp
@[simp] theorem State.fetch_sod (s : State) : s.fetch.2.sod = s.sod := by
  unfold State.fetch; simp only []; split <;> simp; split <;> simp
@[simp] theorem State.fetch_halted (s : State) : s.fetch.2.halted = s.halted := by
  unfold State.fetch; simp only []; split <;> simp; split <;> simp
@[simp] theorem State.fetch_env_inputs (s : State) : s.fetch.2.env.inputs = s.env.inputs := by
  unfold State.fetch; simp only []; split <;> simp; split <;> simp
@[simp] theorem State.fetch_env_trapReq (s : State) : s.fetch.2.env.trapReq = s.env.trapReq := by
  unfold State.fetch; simp only []; split <;> simp; split <;> simp
@[simp] theorem State.fetch_env_params (s : State) : s.fetch.2.env.params = s.env.params := by
  unfold State.fetch; simp only []; split <;> simp; split <;> simp
@[simp] theorem State.fetch_mem (s : State) : s.fetch.2.mem = s.mem := by
  unfold State.fetch; simp only []; split <;> simp; split <;> simp

/-- pc stands at the next instruction after the fetch. -/
theorem State.fetch_pc (s : State) : s.fetch.2.pc = s.pc + BitVec.ofNat 16 (opLength (s.peek s.pc)) := by
  unfold State.fetch
  rcases opLength_cases (s.peek s.pc) with h | h | h
  · simp [h]
  · simp [h]; bv_omega
  · simp [h]; split <;> simp <;> bv_omega

/-! ### The end of an instruction and the step -/

/-- The delayed enable does nothing or sets IE and clears EI_PENDING. -/
theorem State.settleEnable_cases (s : State) (pend : Bool) (i : Instr) :
    (s.settleEnable pend i = s ∧ (pend = false ∨ isEiOrDi i = true)) ∨
    (pend = true ∧ isEiOrDi i = false ∧
      s.settleEnable pend i = { s with irq.ie := true, irq.eiPending := false }) := by
  unfold State.settleEnable
  cases pend <;> cases isEiOrDi i <;> simp

/-! ### settleEnable -/

@[simp] theorem State.settleEnable_regs (s : State) (pend : Bool) (i : Instr) : (s.settleEnable pend i).regs = s.regs := by
  unfold State.settleEnable; split <;> rfl
@[simp] theorem State.settleEnable_sp (s : State) (pend : Bool) (i : Instr) : (s.settleEnable pend i).sp = s.sp := by
  unfold State.settleEnable; split <;> rfl
@[simp] theorem State.settleEnable_pc (s : State) (pend : Bool) (i : Instr) : (s.settleEnable pend i).pc = s.pc := by
  unfold State.settleEnable; split <;> rfl
@[simp] theorem State.settleEnable_flags (s : State) (pend : Bool) (i : Instr) : (s.settleEnable pend i).flags = s.flags := by
  unfold State.settleEnable; split <;> rfl
@[simp] theorem State.settleEnable_sod (s : State) (pend : Bool) (i : Instr) : (s.settleEnable pend i).sod = s.sod := by
  unfold State.settleEnable; split <;> rfl
@[simp] theorem State.settleEnable_halted (s : State) (pend : Bool) (i : Instr) : (s.settleEnable pend i).halted = s.halted := by
  unfold State.settleEnable; split <;> rfl
@[simp] theorem State.settleEnable_mem (s : State) (pend : Bool) (i : Instr) : (s.settleEnable pend i).mem = s.mem := by
  unfold State.settleEnable; split <;> rfl
@[simp] theorem State.settleEnable_env (s : State) (pend : Bool) (i : Instr) : (s.settleEnable pend i).env = s.env := by
  unfold State.settleEnable; split <;> rfl
@[simp] theorem State.settleEnable_irq_m55 (s : State) (pend : Bool) (i : Instr) : (s.settleEnable pend i).irq.m55 = s.irq.m55 := by
  unfold State.settleEnable; split <;> rfl
@[simp] theorem State.settleEnable_irq_m65 (s : State) (pend : Bool) (i : Instr) : (s.settleEnable pend i).irq.m65 = s.irq.m65 := by
  unfold State.settleEnable; split <;> rfl
@[simp] theorem State.settleEnable_irq_m75 (s : State) (pend : Bool) (i : Instr) : (s.settleEnable pend i).irq.m75 = s.irq.m75 := by
  unfold State.settleEnable; split <;> rfl
@[simp] theorem State.settleEnable_irq_i75 (s : State) (pend : Bool) (i : Instr) : (s.settleEnable pend i).irq.i75 = s.irq.i75 := by
  unfold State.settleEnable; split <;> rfl
@[simp] theorem State.settleEnable_irq_trapTaken (s : State) (pend : Bool) (i : Instr) : (s.settleEnable pend i).irq.trapTaken = s.irq.trapTaken := by
  unfold State.settleEnable; split <;> rfl
@[simp] theorem State.settleEnable_irq_ieBeforeTrap (s : State) (pend : Bool) (i : Instr) : (s.settleEnable pend i).irq.ieBeforeTrap = s.irq.ieBeforeTrap := by
  unfold State.settleEnable; split <;> rfl

/-- All that running the instruction at pc can do. -/
theorem State.runInstruction_cases (s t : State) (h : s.runInstruction = .next t) :
    ∃ u, exec s.fetch.1 s.fetch.2 = .next u ∧ t = u.settleEnable s.irq.eiPending s.fetch.1 := by
  unfold State.runInstruction at h
  split at h
  · next u hu => exact ⟨u, hu, by cases h; rfl⟩
  · cases h
  · cases h

/-- All that a boundary can do. -/
theorem State.boundary_cases (s t : State) (h : s.boundary = .next t) :
    (s.now.resetIn = true ∧ t = s.resetEvent) ∨
    (∃ src, s.now.resetIn = false ∧ s.winner = some src ∧ s.takeInterrupt src = .next t) ∨
    (s.now.resetIn = false ∧ s.winner = none ∧ s.halted = true ∧ t = s) ∨
    (s.now.resetIn = false ∧ s.winner = none ∧ s.halted = false ∧ s.runInstruction = .next t) := by
  unfold State.boundary at h
  cases hr : s.now.resetIn
  · simp only [hr, Bool.false_eq_true, if_false] at h
    split at h
    · next src hs => exact .inr (.inl ⟨src, rfl, hs, h⟩)
    · next hs =>
      cases hh : s.halted
      · simp only [hh, Bool.false_eq_true, if_false] at h
        exact .inr (.inr (.inr ⟨rfl, hs, rfl, h⟩))
      · simp only [hh, if_true] at h
        exact .inr (.inr (.inl ⟨rfl, hs, rfl, by cases h; rfl⟩))
  · simp only [hr, if_true] at h
    exact .inl ⟨rfl, by cases h; rfl⟩

/-- All that a step can do: latch the requests, act at the boundary, use up the inputs. -/
theorem step_cases (s t : State) (h : step s = .next t) :
    ∃ u, s.latchRequests.boundary = .next u ∧ t = u.advanceInputs := by
  unfold step at h
  split at h
  · next u hu => exact ⟨u, hu, by cases h; rfl⟩
  · cases h
  · cases h

end Sys2Proof.Machine
end

