-- ==== Sys2Proof/Laws/Operands.lean ====
section
/-! SUPPORT. What each flag computation and each shared action on operands does, once, in the numbers the statements speak in. -/

namespace Sys2Proof.Machine

/-! ### add8 and sub8 (42_arithmetic.md R151, R152) -/

theorem add8_res (x y : Byte) (carry : Bool) : (add8 x y carry).res = BitVec.ofNat 8 (x.toNat + y.toNat + carry.toNat) := by
  apply BitVec.eq_of_toNat_eq
  have := x.isLt
  have := y.isLt
  cases carry <;> simp [add8, BitVec.toNat_add, Nat.mod_eq_of_lt]

theorem add8_cy (x y : Byte) (carry : Bool) : (add8 x y carry).cy = true ↔ 256 ≤ x.toNat + y.toNat + carry.toNat := by
  have := x.isLt
  have := y.isLt
  have top : ∀ v : BitVec 9, v.getLsbD 8 = true ↔ 256 ≤ v.toNat := by decide +kernel
  simp only [add8, top]
  cases carry <;> simp [BitVec.toNat_add] <;> omega

theorem add8_ac (x y : Byte) (carry : Bool) :
    (add8 x y carry).ac = true ↔ 16 ≤ x.toNat % 16 + y.toNat % 16 + carry.toNat := by
  have top : ∀ v : BitVec 5, v.getLsbD 4 = true ↔ 16 ≤ v.toNat := by decide
  simp only [add8, top]
  cases carry <;> simp [BitVec.toNat_add, BitVec.extractLsb'_toNat] <;> omega

/-- Z, S and P as `flagsOf` computes them are those of R27. -/
theorem zspOf_flagsOf (res : Byte) (cy ac : Bool) : (flagsOf res cy ac).ZspOf res := by
  have all : ∀ r : Byte, (parityEven r = true ↔ onesIn r % 2 = 0) ∧ (r.getLsbD 7 = true ↔ 128 ≤ r.toNat) ∧
      ((r == 0) = true ↔ r.toNat = 0) := by decide +kernel
  exact ⟨(all res).2.2, (all res).2.1, (all res).1⟩

/-- All five flags of an addition. -/
theorem add8_flags (x y : Byte) (carry : Bool) : (add8 x y carry).flags.OfSum x y carry := by
  refine ⟨?_, add8_cy .., add8_ac ..⟩
  rw [← add8_res]
  exact zspOf_flagsOf ..

theorem toNat_complement (y : Byte) : (~~~y).toNat = 255 - y.toNat := by simp [BitVec.toNat_not]

theorem sub8_res (x y : Byte) (borrow : Bool) :
    (sub8 x y borrow).res = BitVec.ofNat 8 (x.toNat + 256 - y.toNat - borrow.toNat) := by
  have := y.isLt
  simp only [sub8, add8_res, toNat_complement]
  congr 1
  cases borrow <;> simp <;> omega

/-- All five flags of a subtraction. -/
theorem sub8_flags (x y : Byte) (borrow : Bool) : (sub8 x y borrow).flags.OfDifference x y borrow := by
  have hx := x.isLt
  have hy := y.isLt
  refine ⟨?_, ?_, ?_⟩
  · rw [← sub8_res]
    exact zspOf_flagsOf ..
  · have sum := add8_cy x (~~~y) (!borrow)
    rw [toNat_complement] at sum
    simp only [sub8, AluOut.flags, flagsOf, Bool.not_eq_true', ← Bool.not_eq_true, sum]
    cases borrow <;> simp <;> omega
  · have sum := add8_ac x (~~~y) (!borrow)
    rw [toNat_complement] at sum
    simp only [sub8, AluOut.flags, flagsOf, sum]
    cases borrow <;> simp <;> omega

/-! ### The flag word (10_state.md R34) -/

/-- The five flags stand at bits 7, 6, 4, 2 and 0, whatever the X bits are. -/
theorem flagWord_bits (f : Flags) (x : BitVec 3) :
    (flagWord f x).getLsbD 7 = f.s ∧ (flagWord f x).getLsbD 6 = f.z ∧ (flagWord f x).getLsbD 4 = f.ac ∧
      (flagWord f x).getLsbD 2 = f.p ∧ (flagWord f x).getLsbD 0 = f.cy := by
  have all : ∀ (z s p cy ac : Bool) (x : BitVec 3), (flagWord ⟨z, s, p, cy, ac⟩ x).getLsbD 7 = s ∧
      (flagWord ⟨z, s, p, cy, ac⟩ x).getLsbD 6 = z ∧ (flagWord ⟨z, s, p, cy, ac⟩ x).getLsbD 4 = ac ∧
      (flagWord ⟨z, s, p, cy, ac⟩ x).getLsbD 2 = p ∧ (flagWord ⟨z, s, p, cy, ac⟩ x).getLsbD 0 = cy := by decide
  exact all f.z f.s f.p f.cy f.ac x

/-- The flags come back from a flag word, whatever the X bits are. -/
@[simp] theorem flagsOfWord_flagWord (f : Flags) (x : BitVec 3) : flagsOfWord (flagWord f x) = f := by
  obtain ⟨hs, hz, hac, hp, hcy⟩ := flagWord_bits f x
  unfold flagsOfWord
  rw [hs, hz, hac, hp, hcy]

/-! ### The operand M and the pairs -/

@[simp] theorem State.addrM_noteRead (s : State) (a : Word) : (s.noteRead a).addrM = s.addrM := by simp [State.addrM]

theorem State.toNat_addrM (s : State) : s.addrM.toNat = s.pairNat .hl := toNat_joinBytes _ _

/-- A pair holds the number its two registers make. -/
theorem State.pair_eq_ofNat (s : State) (p : Pair) : s.pair p = BitVec.ofNat 16 (s.pairNat p) := by
  cases p <;> apply BitVec.eq_of_toNat_eq
  all_goals first
    | (simp only [State.pair, toNat_joinBytes, State.pairNat]; simp; omega)
    | simp [State.pair, State.pairNat]

theorem State.pairNat_lt (s : State) (p : Pair) : s.pairNat p < 65536 := by
  cases p <;> simp only [State.pairNat] <;> omega

/-- Writing a pair writes both halves and nothing else. -/
theorem State.pairSet_setPair (s : State) (p : Pair) (v : Word) (n : Nat) (h : v = BitVec.ofNat 16 n) :
    s.PairSet (s.setPair p v) p n := by
  have high : highByte v = BitVec.ofNat 8 (n / 256) := by
    apply BitVec.eq_of_toNat_eq
    rw [toNat_highByte, h]
    simp
    omega
  have low : lowByte v = BitVec.ofNat 8 n := by
    apply BitVec.eq_of_toNat_eq
    rw [toNat_lowByte, h]
    simp
  cases p <;> simp [State.PairSet, State.setPair, high, low]
  exact h

/-! ### Stores and accesses as the statements speak of them -/

/-- Memory left alone. -/
theorem State.stores_nothing {s t : State} (h : t.mem = s.mem) : s.Stores t [] :=
  ⟨fun a _ => by simp [State.byteAt, h], by simp⟩

/-- One byte written. -/
theorem State.stores_writeByte (s t : State) (a : Word) (v : Byte) (hw : s.mem.wf = true)
    (h : t.mem = (s.writeByte a v).mem) : s.Stores t [(a, v)] := by
  refine ⟨fun b hb => ?_, ?_⟩
  · have ne : b ≠ a := by simpa using hb
    have keep := State.byteAt_writeByte_other s a b v ne
    simpa [State.byteAt, h] using keep
  · intro c hc hr
    simp at hc
    subst hc
    have same := State.byteAt_writeByte_same s a v hw hr
    simpa [State.byteAt, h] using same

/-- A read returns the content of populated memory. -/
theorem State.readsAs_peek (s : State) (a : Word) : s.ReadsAs a (s.peek a) := fun h => State.peek_populated s a h

/-- The access a read makes. -/
theorem State.sees_noteRead (s t : State) (a : Word) (h : t.env = (s.noteRead a).env) :
    s.Sees t [.memRead a (s.peek a)] := by
  unfold State.Sees
  rw [h]
  unfold State.noteRead State.drawIfOpen
  split <;> rfl

/-- The access a write makes. -/
theorem State.sees_writeByte (s : State) (a : Word) (v : Byte) : s.Sees (s.writeByte a v) [.memWrite a v] := by
  rw [State.writeByte_eq]
  rfl

end Sys2Proof.Machine
end

