-- ==== Sys2Proof/Laws/PerInstr.lean ====
section
/-! SUPPORT. The per-instruction family EncodeLength: the bytes of an instruction are as many as the length that its first byte
gives it (30_encoding.md R94, R111). -/

namespace Sys2Proof.Laws

/-- The encoding has a first byte, and that byte's length is the number of bytes of the encoding. -/
def EncodeLength.Statement (i : Instr) : Prop := (encode i).head?.map opLength = some (encode i).length

/-- Every restart number's first byte is one byte long. -/
theorem opLength_rst (code : BitVec 3) : opLength (0b11#2 ++ code ++ 0b111#3) = 1 := by
  revert code; decide

theorem EncodeLength.movRR (dst : Reg) (src : Reg) : EncodeLength.Statement (.movRR dst src) := by
  cases dst <;> cases src <;> rfl

theorem EncodeLength.movRM (dst : Reg) : EncodeLength.Statement (.movRM dst) := by
  cases dst <;> rfl

theorem EncodeLength.movMR (src : Reg) : EncodeLength.Statement (.movMR src) := by
  cases src <;> rfl

theorem EncodeLength.mviR (dst : Reg) (data : Byte) : EncodeLength.Statement (.mviR dst data) := by
  cases dst <;> rfl

theorem EncodeLength.mviM (data : Byte) : EncodeLength.Statement (.mviM data) := rfl

theorem EncodeLength.lxi (rp : Pair) (data : Word) : EncodeLength.Statement (.lxi rp data) := by
  cases rp <;> rfl

theorem EncodeLength.lda (addr : Word) : EncodeLength.Statement (.lda addr) := rfl

theorem EncodeLength.sta (addr : Word) : EncodeLength.Statement (.sta addr) := rfl

theorem EncodeLength.lhld (addr : Word) : EncodeLength.Statement (.lhld addr) := rfl

theorem EncodeLength.shld (addr : Word) : EncodeLength.Statement (.shld addr) := rfl

theorem EncodeLength.ldax (rp : IndexPair) : EncodeLength.Statement (.ldax rp) := by
  cases rp <;> rfl

theorem EncodeLength.stax (rp : IndexPair) : EncodeLength.Statement (.stax rp) := by
  cases rp <;> rfl

theorem EncodeLength.xchg : EncodeLength.Statement .xchg := rfl

theorem EncodeLength.addR (src : Reg) : EncodeLength.Statement (.addR src) := by
  cases src <;> rfl

theorem EncodeLength.addM : EncodeLength.Statement .addM := rfl

theorem EncodeLength.adi (data : Byte) : EncodeLength.Statement (.adi data) := rfl

theorem EncodeLength.adcR (src : Reg) : EncodeLength.Statement (.adcR src) := by
  cases src <;> rfl

theorem EncodeLength.adcM : EncodeLength.Statement .adcM := rfl

theorem EncodeLength.aci (data : Byte) : EncodeLength.Statement (.aci data) := rfl

theorem EncodeLength.subR (src : Reg) : EncodeLength.Statement (.subR src) := by
  cases src <;> rfl

theorem EncodeLength.subM : EncodeLength.Statement .subM := rfl

theorem EncodeLength.sui (data : Byte) : EncodeLength.Statement (.sui data) := rfl

theorem EncodeLength.sbbR (src : Reg) : EncodeLength.Statement (.sbbR src) := by
  cases src <;> rfl

theorem EncodeLength.sbbM : EncodeLength.Statement .sbbM := rfl

theorem EncodeLength.sbi (data : Byte) : EncodeLength.Statement (.sbi data) := rfl

theorem EncodeLength.inrR (dst : Reg) : EncodeLength.Statement (.inrR dst) := by
  cases dst <;> rfl

theorem EncodeLength.inrM : EncodeLength.Statement .inrM := rfl

theorem EncodeLength.dcrR (dst : Reg) : EncodeLength.Statement (.dcrR dst) := by
  cases dst <;> rfl

theorem EncodeLength.dcrM : EncodeLength.Statement .dcrM := rfl

theorem EncodeLength.inx (rp : Pair) : EncodeLength.Statement (.inx rp) := by
  cases rp <;> rfl

theorem EncodeLength.dcx (rp : Pair) : EncodeLength.Statement (.dcx rp) := by
  cases rp <;> rfl

theorem EncodeLength.dad (rp : Pair) : EncodeLength.Statement (.dad rp) := by
  cases rp <;> rfl

theorem EncodeLength.daa : EncodeLength.Statement .daa := rfl

theorem EncodeLength.anaR (src : Reg) : EncodeLength.Statement (.anaR src) := by
  cases src <;> rfl

theorem EncodeLength.anaM : EncodeLength.Statement .anaM := rfl

theorem EncodeLength.ani (data : Byte) : EncodeLength.Statement (.ani data) := rfl

theorem EncodeLength.xraR (src : Reg) : EncodeLength.Statement (.xraR src) := by
  cases src <;> rfl

theorem EncodeLength.xraM : EncodeLength.Statement .xraM := rfl

theorem EncodeLength.xri (data : Byte) : EncodeLength.Statement (.xri data) := rfl

theorem EncodeLength.oraR (src : Reg) : EncodeLength.Statement (.oraR src) := by
  cases src <;> rfl

theorem EncodeLength.oraM : EncodeLength.Statement .oraM := rfl

theorem EncodeLength.ori (data : Byte) : EncodeLength.Statement (.ori data) := rfl

theorem EncodeLength.cmpR (src : Reg) : EncodeLength.Statement (.cmpR src) := by
  cases src <;> rfl

theorem EncodeLength.cmpM : EncodeLength.Statement .cmpM := rfl

theorem EncodeLength.cpi (data : Byte) : EncodeLength.Statement (.cpi data) := rfl

theorem EncodeLength.rlc : EncodeLength.Statement .rlc := rfl

theorem EncodeLength.rrc : EncodeLength.Statement .rrc := rfl

theorem EncodeLength.ral : EncodeLength.Statement .ral := rfl

theorem EncodeLength.rar : EncodeLength.Statement .rar := rfl

theorem EncodeLength.cma : EncodeLength.Statement .cma := rfl

theorem EncodeLength.cmc : EncodeLength.Statement .cmc := rfl

theorem EncodeLength.stc : EncodeLength.Statement .stc := rfl

theorem EncodeLength.jmp (addr : Word) : EncodeLength.Statement (.jmp addr) := rfl

theorem EncodeLength.jnz (addr : Word) : EncodeLength.Statement (.jnz addr) := rfl

theorem EncodeLength.jz (addr : Word) : EncodeLength.Statement (.jz addr) := rfl

theorem EncodeLength.jnc (addr : Word) : EncodeLength.Statement (.jnc addr) := rfl

theorem EncodeLength.jc (addr : Word) : EncodeLength.Statement (.jc addr) := rfl

theorem EncodeLength.jpo (addr : Word) : EncodeLength.Statement (.jpo addr) := rfl

theorem EncodeLength.jpe (addr : Word) : EncodeLength.Statement (.jpe addr) := rfl

theorem EncodeLength.jp (addr : Word) : EncodeLength.Statement (.jp addr) := rfl

theorem EncodeLength.jm (addr : Word) : EncodeLength.Statement (.jm addr) := rfl

theorem EncodeLength.call (addr : Word) : EncodeLength.Statement (.call addr) := rfl

theorem EncodeLength.cnz (addr : Word) : EncodeLength.Statement (.cnz addr) := rfl

theorem EncodeLength.cz (addr : Word) : EncodeLength.Statement (.cz addr) := rfl

theorem EncodeLength.cnc (addr : Word) : EncodeLength.Statement (.cnc addr) := rfl

theorem EncodeLength.cc (addr : Word) : EncodeLength.Statement (.cc addr) := rfl

theorem EncodeLength.cpo (addr : Word) : EncodeLength.Statement (.cpo addr) := rfl

theorem EncodeLength.cpe (addr : Word) : EncodeLength.Statement (.cpe addr) := rfl

theorem EncodeLength.cp (addr : Word) : EncodeLength.Statement (.cp addr) := rfl

theorem EncodeLength.cm (addr : Word) : EncodeLength.Statement (.cm addr) := rfl

theorem EncodeLength.ret : EncodeLength.Statement .ret := rfl

theorem EncodeLength.rnz : EncodeLength.Statement .rnz := rfl

theorem EncodeLength.rz : EncodeLength.Statement .rz := rfl

theorem EncodeLength.rnc : EncodeLength.Statement .rnc := rfl

theorem EncodeLength.rc : EncodeLength.Statement .rc := rfl

theorem EncodeLength.rpo : EncodeLength.Statement .rpo := rfl

theorem EncodeLength.rpe : EncodeLength.Statement .rpe := rfl

theorem EncodeLength.rp : EncodeLength.Statement .rp := rfl

theorem EncodeLength.rm : EncodeLength.Statement .rm := rfl

theorem EncodeLength.rst (n : Nat) : EncodeLength.Statement (.rst n) := by
  simp [EncodeLength.Statement, encode, opLength_rst]

theorem EncodeLength.pchl : EncodeLength.Statement .pchl := rfl

theorem EncodeLength.push (rp : StackPair) : EncodeLength.Statement (.push rp) := by
  cases rp <;> rfl

theorem EncodeLength.pushPsw : EncodeLength.Statement .pushPsw := rfl

theorem EncodeLength.pop (rp : StackPair) : EncodeLength.Statement (.pop rp) := by
  cases rp <;> rfl

theorem EncodeLength.popPsw : EncodeLength.Statement .popPsw := rfl

theorem EncodeLength.xthl : EncodeLength.Statement .xthl := rfl

theorem EncodeLength.sphl : EncodeLength.Statement .sphl := rfl

theorem EncodeLength.inPort (port : Byte) : EncodeLength.Statement (.inPort port) := rfl

theorem EncodeLength.outPort (port : Byte) : EncodeLength.Statement (.outPort port) := rfl

theorem EncodeLength.ei : EncodeLength.Statement .ei := rfl

theorem EncodeLength.di : EncodeLength.Statement .di := rfl

theorem EncodeLength.hlt : EncodeLength.Statement .hlt := rfl

theorem EncodeLength.nop : EncodeLength.Statement .nop := rfl

theorem EncodeLength.rim : EncodeLength.Statement .rim := rfl

theorem EncodeLength.sim : EncodeLength.Statement .sim := rfl

theorem EncodeLength.undef08 : EncodeLength.Statement .undef08 := rfl

theorem EncodeLength.undef10 : EncodeLength.Statement .undef10 := rfl

theorem EncodeLength.undef18 : EncodeLength.Statement .undef18 := rfl

theorem EncodeLength.undef28 : EncodeLength.Statement .undef28 := rfl

theorem EncodeLength.undef38 : EncodeLength.Statement .undef38 := rfl

theorem EncodeLength.undefCB : EncodeLength.Statement .undefCB := rfl

theorem EncodeLength.undefD9 : EncodeLength.Statement .undefD9 := rfl

theorem EncodeLength.undefDD : EncodeLength.Statement .undefDD := rfl

theorem EncodeLength.undefED : EncodeLength.Statement .undefED := rfl

theorem EncodeLength.undefFD : EncodeLength.Statement .undefFD := rfl

end Sys2Proof.Laws
end

