-- ==== Sys2Proof/Tests/Slice0.lean ====
section
/-! SUPPORT. The model's own tests: words written out from the encodings of 30_encoding.md, one step of each instruction against
the rows of 95_test_vectors.md, the boundaries of 96_test_vectors_interrupts.md, and one witness for the hypotheses of each
statement that has any. -/

namespace Sys2Proof.Tests

open Sys2Proof Sys2Proof.Machine

/-! ### WellFormed: each check with a term it refuses -/

theorem test_rst_eight_is_ill_formed : (Instr.rst 8).wellFormed = false := by decide

theorem test_rst_seven_is_well_formed : (Instr.rst 7).wellFormed = true ∧ (Instr.rst 0).wellFormed = true := by decide

/-! ### Decoding: words written bit by bit from the opcode table (30_encoding.md R91, R96 to R98) -/

/-- Every word of the list decodes to its instruction, with nothing left over, and is what the encoder writes. -/
def allDecode (rows : List (List Byte × Instr)) : Bool :=
  rows.all fun r => decide (decode r.1 = .ok (r.2, [])) && decide (encode r.2 = r.1)

theorem test_decode_data_transfer : allDecode
    [([0b01_111_011], .movRR .a .e), ([0b01_000_001], .movRR .b .c), ([0b01_010_110], .movRM .d), ([0b01110_101], .movMR .l),
      ([0b00_100_110, 0x2C], .mviR .h 0x2C), ([0b00110110, 0x80], .mviM 0x80), ([0b00_00_0001, 0x34, 0x12], .lxi .bc 0x1234),
      ([0b00_11_0001, 0x00, 0x24], .lxi .sp 0x2400), ([0b00111010, 0x50, 0x20], .lda 0x2050),
      ([0b00110010, 0x50, 0x20], .sta 0x2050), ([0b00101010, 0x50, 0x20], .lhld 0x2050),
      ([0b00100010, 0x50, 0x20], .shld 0x2050), ([0b00_01_1010], .ldax .de), ([0b00_00_0010], .stax .bc),
      ([0b11101011], .xchg)] = true := by decide

theorem test_decode_arithmetic : allDecode
    [([0b10000_000], .addR .b), ([0b10000110], .addM), ([0b11000110, 0x42], .adi 0x42), ([0b10001_001], .adcR .c),
      ([0b10001110], .adcM), ([0b11001110, 0xFF], .aci 0xFF), ([0b10010_111], .subR .a), ([0b10010110], .subM),
      ([0b11010110, 0x0A], .sui 0x0A), ([0b10011_101], .sbbR .l), ([0b10011110], .sbbM), ([0b11011110, 0x01], .sbi 0x01),
      ([0b00_001_100], .inrR .c), ([0b00110100], .inrM), ([0b00_100_101], .dcrR .h), ([0b00110101], .dcrM),
      ([0b00_10_0011], .inx .hl), ([0b00_01_1011], .dcx .de), ([0b00_11_1001], .dad .sp), ([0b00100111], .daa)] = true := by
  decide

theorem test_decode_logical : allDecode
    [([0b10100_010], .anaR .d), ([0b10100110], .anaM), ([0b11100110, 0x0F], .ani 0x0F), ([0b10101_100], .xraR .h),
      ([0b10101110], .xraM), ([0b11101110, 0x81], .xri 0x81), ([0b10110_001], .oraR .c), ([0b10110110], .oraM),
      ([0b11110110, 0x0F], .ori 0x0F), ([0b10111_011], .cmpR .e), ([0b10111110], .cmpM), ([0b11111110, 0x40], .cpi 0x40),
      ([0b00000111], .rlc), ([0b00001111], .rrc), ([0b00010111], .ral), ([0b00011111], .rar), ([0b00101111], .cma),
      ([0b00111111], .cmc), ([0b00110111], .stc)] = true := by decide

theorem test_decode_branch : allDecode
    [([0b11000011, 0x00, 0x3E], .jmp 0x3E00), ([0b11_000_010, 1, 2], .jnz 0x0201), ([0b11_001_010, 1, 2], .jz 0x0201),
      ([0b11_010_010, 1, 2], .jnc 0x0201), ([0b11_011_010, 1, 2], .jc 0x0201), ([0b11_100_010, 1, 2], .jpo 0x0201),
      ([0b11_101_010, 1, 2], .jpe 0x0201), ([0b11_110_010, 1, 2], .jp 0x0201), ([0b11_111_010, 1, 2], .jm 0x0201),
      ([0b11001101, 1, 2], .call 0x0201), ([0b11_000_100, 1, 2], .cnz 0x0201), ([0b11_001_100, 1, 2], .cz 0x0201),
      ([0b11_010_100, 1, 2], .cnc 0x0201), ([0b11_011_100, 1, 2], .cc 0x0201), ([0b11_100_100, 1, 2], .cpo 0x0201),
      ([0b11_101_100, 1, 2], .cpe 0x0201), ([0b11_110_100, 1, 2], .cp 0x0201), ([0b11_111_100, 1, 2], .cm 0x0201),
      ([0b11001001], .ret), ([0b11_000_000], .rnz), ([0b11_001_000], .rz), ([0b11_010_000], .rnc), ([0b11_011_000], .rc),
      ([0b11_100_000], .rpo), ([0b11_101_000], .rpe), ([0b11_110_000], .rp), ([0b11_111_000], .rm),
      ([0b11_000_111], .rst 0), ([0b11_101_111], .rst 5), ([0b11101001], .pchl)] = true := by decide

theorem test_decode_stack_io_control : allDecode
    [([0b11_00_0101], .push .bc), ([0b11_10_0101], .push .hl), ([0b11110101], .pushPsw), ([0b11_01_0001], .pop .de),
      ([0b11110001], .popPsw), ([0b11100011], .xthl), ([0b11111001], .sphl), ([0b11011011, 0x10], .inPort 0x10),
      ([0b11010011, 0x20], .outPort 0x20), ([0b11111011], .ei), ([0b11110011], .di), ([0b01110110], .hlt), ([0b00000000], .nop),
      ([0b00100000], .rim), ([0b00110000], .sim)] = true := by decide

theorem test_decode_undefined : allDecode
    [([0x08], .undef08), ([0x10], .undef10), ([0x18], .undef18), ([0x28], .undef28), ([0x38], .undef38), ([0xCB], .undefCB),
      ([0xD9], .undefD9), ([0xDD], .undefDD), ([0xED], .undefED), ([0xFD], .undefFD)] = true := by decide

theorem test_decode_refuses_missing_bytes :
    decode [] = .error .noBytes ∧ decode [0xC3, 0x00] = .error (.missingOperand 0xC3) := by decide

theorem test_decodeTableWord :
    decodeTableWord 24 0x1234C3 = some (.jmp 0x1234) ∧ decodeTableWord 8 0x7B = some (.movRR .a .e) := by decide

/-! ### One step -/

/-- The machine of the test tables: the code at 0x0100, every cell not named 0, the masks 1. -/
def boot (code : List Byte) : State := (State.reset.setPc 0x0100).placeAll 0x0100 code

/-- The step completes and what follows passes the check. -/
def stepPasses (s : State) (check : State → Bool) : Bool :=
  match step s with
  | .next t => check t
  | _ => false

/-- The same, from `boot code` with these cells set. -/
def after (code : List Byte) (before : State → State) (check : State → Bool) : Bool := stepPasses (before (boot code)) check

/-- Z, S, P, CY, AC, as the test tables order them. -/
def fl (z s p cy ac : Nat) : Flags := { z := z == 1, s := s == 1, p := p == 1, cy := cy == 1, ac := ac == 1 }

/-! ### Data transfer group (95_test_vectors.md section 2.1) -/

theorem test_movRR :
    after [0x41] (fun s => { s with regs.b := 0x11, regs.c := 0x22 })
      (fun t => t.pc == 0x0101 && t.regs.b == 0x22 && t.regs.c == 0x22) = true ∧
    after [0x7F] (fun s => { s with regs.a := 0x5A })
      (fun t => t.pc == 0x0101 && t.regs.a == 0x5A) = true := by decide

theorem test_movRM :
    after [0x5E] (fun s => ({ s with regs.h := 0x20, regs.l := 0x50, regs.e := 0x00 } : State).place 0x2050 0x9C)
      (fun t => t.pc == 0x0101 && t.regs.e == 0x9C && t.env.bus.take 1 == [.memRead 0x2050 0x9C]) = true ∧
    after [0x66] (fun s => ({ s with regs.h := 0x20, regs.l := 0x50 } : State).place 0x2050 0x9C)
      (fun t => t.pc == 0x0101 && t.regs.h == 0x9C && t.regs.l == 0x50 && t.env.bus.take 1 == [.memRead 0x2050 0x9C]) = true := by decide

theorem test_movMR :
    after [0x77] (fun s => { s with regs.h := 0x20, regs.l := 0x50, regs.a := 0x3E })
      (fun t => t.pc == 0x0101 && t.byteAt 0x2050 == 0x3E && t.env.bus.take 1 == [.memWrite 0x2050 0x3E]) = true ∧
    after [0x74] (fun s => { s with regs.h := 0x20, regs.l := 0x50 })
      (fun t => t.pc == 0x0101 && t.byteAt 0x2050 == 0x20 && t.env.bus.take 1 == [.memWrite 0x2050 0x20]) = true := by decide

theorem test_mviR :
    after [0x16, 0xFF] (fun s => { s with regs.d := 0x00 })
      (fun t => t.regs.d == 0xFF && t.pc == 0x0102) = true := by decide

theorem test_mviM :
    after [0x36, 0x80] (fun s => { s with regs.h := 0x20, regs.l := 0x50 })
      (fun t => t.byteAt 0x2050 == 0x80 && t.pc == 0x0102 && t.env.bus.take 1 == [.memWrite 0x2050 0x80]) = true := by decide

theorem test_lxi :
    after [0x01, 0x34, 0x12] id
      (fun t => t.regs.b == 0x12 && t.regs.c == 0x34 && t.pc == 0x0103) = true ∧
    after [0x31, 0x00, 0x24] id
      (fun t => t.pc == 0x0103 && t.sp == 0x2400) = true := by decide

theorem test_lda :
    after [0x3A, 0x50, 0x20] (fun s => s.place 0x2050 0x77)
      (fun t => t.pc == 0x0103 && t.regs.a == 0x77 && t.env.bus.take 1 == [.memRead 0x2050 0x77]) = true := by decide

theorem test_sta :
    after [0x32, 0x50, 0x20] (fun s => { s with regs.a := 0x99 })
      (fun t => t.pc == 0x0103 && t.byteAt 0x2050 == 0x99 && t.env.bus.take 1 == [.memWrite 0x2050 0x99]) = true := by decide

theorem test_lhld :
    after [0x2A, 0x50, 0x20] (fun s => s.placeAll 0x2050 [0xCD, 0xAB])
      (fun t => t.pc == 0x0103 && t.regs.h == 0xAB && t.regs.l == 0xCD && t.env.bus.take 2 == [.memRead 0x2051 0xAB, .memRead 0x2050 0xCD]) = true ∧
    after [0x2A, 0xFF, 0xFF] (fun s => s.placeAll 0xFFFF [0x11, 0x22])
      (fun t => t.pc == 0x0103 && t.regs.h == 0x22 && t.regs.l == 0x11 && t.env.bus.take 2 == [.memRead 0x0000 0x22, .memRead 0xFFFF 0x11]) = true := by decide

theorem test_shld :
    after [0x22, 0x50, 0x20] (fun s => { s with regs.h := 0xAE, regs.l := 0x29 })
      (fun t => t.pc == 0x0103 && t.byteAt 0x2050 == 0x29 && t.byteAt 0x2051 == 0xAE && t.env.bus.take 2 == [.memWrite 0x2051 0xAE, .memWrite 0x2050 0x29]) = true ∧
    after [0x22, 0xFF, 0xFF] (fun s => { s with regs.h := 0xAE, regs.l := 0x29 })
      (fun t => t.pc == 0x0103 && t.byteAt 0xFFFF == 0x29 && t.byteAt 0x0000 == 0xAE && t.env.bus.take 2 == [.memWrite 0x0000 0xAE, .memWrite 0xFFFF 0x29]) = true := by decide

theorem test_ldax :
    after [0x0A] (fun s => ({ s with regs.b := 0x20, regs.c := 0x50 } : State).place 0x2050 0x42)
      (fun t => t.pc == 0x0101 && t.regs.a == 0x42 && t.env.bus.take 1 == [.memRead 0x2050 0x42]) = true ∧
    after [0x1A] (fun s => ({ s with regs.d := 0x20, regs.e := 0x51 } : State).place 0x2051 0x43)
      (fun t => t.pc == 0x0101 && t.regs.a == 0x43 && t.env.bus.take 1 == [.memRead 0x2051 0x43]) = true := by decide

theorem test_stax :
    after [0x02] (fun s => { s with regs.b := 0x20, regs.c := 0x50, regs.a := 0x0F })
      (fun t => t.pc == 0x0101 && t.byteAt 0x2050 == 0x0F && t.env.bus.take 1 == [.memWrite 0x2050 0x0F]) = true ∧
    after [0x12] (fun s => { s with regs.d := 0x20, regs.e := 0x51, regs.a := 0xF0 })
      (fun t => t.pc == 0x0101 && t.byteAt 0x2051 == 0xF0 && t.env.bus.take 1 == [.memWrite 0x2051 0xF0]) = true := by decide

theorem test_xchg :
    after [0xEB] (fun s => { s with regs.h := 0x12, regs.l := 0x34, regs.d := 0xAB, regs.e := 0xCD })
      (fun t => t.pc == 0x0101 && t.regs.h == 0xAB && t.regs.l == 0xCD && t.regs.d == 0x12 && t.regs.e == 0x34) = true := by decide

/-! ### Arithmetic group (95_test_vectors.md section 2.2) -/

theorem test_addR :
    after [0x80] (fun s => { s with regs.a := 0x6C, regs.b := 0x2E })
      (fun t => t.flags == fl 0 1 1 0 1 && t.pc == 0x0101 && t.regs.a == 0x9A) = true ∧
    after [0x87] (fun s => { s with regs.a := 0x80 })
      (fun t => t.flags == fl 1 0 1 1 0 && t.pc == 0x0101 && t.regs.a == 0x00) = true := by decide

theorem test_addM :
    after [0x86] (fun s => ({ s with regs.a := 0xFF, regs.h := 0x20, regs.l := 0x50 } : State).place 0x2050 0x01)
      (fun t => t.flags == fl 1 0 1 1 1 && t.pc == 0x0101 && t.regs.a == 0x00 && t.env.bus.take 1 == [.memRead 0x2050 0x01]) = true := by decide

theorem test_adi :
    after [0xC6, 0x42] (fun s => { s with regs.a := 0x14 })
      (fun t => t.flags == fl 0 0 1 0 0 && t.pc == 0x0102 && t.regs.a == 0x56) = true ∧
    after [0xC6, 0x01] (fun s => { s with regs.a := 0x7F })
      (fun t => t.flags == fl 0 1 0 0 1 && t.pc == 0x0102 && t.regs.a == 0x80) = true := by decide

theorem test_adcR :
    after [0x89] (fun s => { s with regs.a := 0x3D, regs.c := 0x42, flags.cy := true })
      (fun t => t.flags == fl 0 1 0 0 1 && t.pc == 0x0101 && t.regs.a == 0x80) = true ∧
    after [0x89] (fun s => { s with regs.a := 0x3D, regs.c := 0x42 })
      (fun t => t.flags == fl 0 0 0 0 0 && t.pc == 0x0101 && t.regs.a == 0x7F) = true := by decide

theorem test_adcM :
    after [0x8E] (fun s => ({ s with regs.a := 0x0F, regs.h := 0x20, regs.l := 0x50, flags.cy := true } : State).place 0x2050 0x00)
      (fun t => t.flags == fl 0 0 0 0 1 && t.pc == 0x0101 && t.regs.a == 0x10 && t.env.bus.take 1 == [.memRead 0x2050 0x00]) = true := by decide

theorem test_aci :
    after [0xCE, 0xFF] (fun s => { s with regs.a := 0x00, flags.cy := true })
      (fun t => t.flags == fl 1 0 1 1 1 && t.pc == 0x0102 && t.regs.a == 0x00) = true := by decide

theorem test_subR :
    after [0x90] (fun s => { s with regs.a := 0x10, regs.b := 0x01 })
      (fun t => t.flags == fl 0 0 1 0 0 && t.pc == 0x0101 && t.regs.a == 0x0F) = true ∧
    after [0x90] (fun s => { s with regs.a := 0x00, regs.b := 0x01 })
      (fun t => t.flags == fl 0 1 1 1 0 && t.pc == 0x0101 && t.regs.a == 0xFF) = true := by decide

theorem test_subM :
    after [0x96] (fun s => ({ s with regs.a := 0x50, regs.h := 0x20, regs.l := 0x50 } : State).place 0x2050 0x50)
      (fun t => t.flags == fl 1 0 1 0 1 && t.pc == 0x0101 && t.regs.a == 0x00 && t.env.bus.take 1 == [.memRead 0x2050 0x50]) = true := by decide

theorem test_sui :
    after [0xD6, 0x0A] (fun s => { s with regs.a := 0x25 })
      (fun t => t.flags == fl 0 0 1 0 0 && t.pc == 0x0102 && t.regs.a == 0x1B) = true ∧
    after [0xD6, 0x00] (fun s => { s with regs.a := 0x00 })
      (fun t => t.flags == fl 1 0 1 0 1 && t.pc == 0x0102 && t.regs.a == 0x00) = true := by decide

theorem test_sbbR :
    after [0x9D] (fun s => { s with regs.a := 0x04, regs.l := 0x02, flags.cy := true })
      (fun t => t.flags == fl 0 0 0 0 1 && t.pc == 0x0101 && t.regs.a == 0x01) = true ∧
    after [0x98] (fun s => { s with regs.a := 0x00, regs.b := 0xFF, flags.cy := true })
      (fun t => t.flags == fl 1 0 1 1 0 && t.pc == 0x0101 && t.regs.a == 0x00) = true := by decide

theorem test_sbbM :
    after [0x9E] (fun s => ({ s with regs.a := 0x80, regs.h := 0x20, regs.l := 0x50 } : State).place 0x2050 0x01)
      (fun t => t.flags == fl 0 0 0 0 0 && t.pc == 0x0101 && t.regs.a == 0x7F && t.env.bus.take 1 == [.memRead 0x2050 0x01]) = true := by decide

theorem test_sbi :
    after [0xDE, 0x01] (fun s => { s with regs.a := 0x00 })
      (fun t => t.flags == fl 0 1 1 1 0 && t.pc == 0x0102 && t.regs.a == 0xFF) = true ∧
    after [0xDE, 0x00] (fun s => { s with regs.a := 0x00, flags.cy := true })
      (fun t => t.flags == fl 0 1 1 1 0 && t.pc == 0x0102 && t.regs.a == 0xFF) = true := by decide

theorem test_inrR :
    after [0x0C] (fun s => { s with regs.c := 0x0F, flags.cy := true })
      (fun t => t.flags == fl 0 0 0 1 1 && t.pc == 0x0101 && t.regs.c == 0x10) = true ∧
    after [0x04] (fun s => { s with regs.b := 0x7F })
      (fun t => t.flags == fl 0 1 0 0 1 && t.pc == 0x0101 && t.regs.b == 0x80) = true := by decide

theorem test_inrM :
    after [0x34] (fun s => ({ s with regs.h := 0x20, regs.l := 0x50 } : State).place 0x2050 0x99)
      (fun t => t.flags == fl 0 1 1 0 0 && t.pc == 0x0101 && t.byteAt 0x2050 == 0x9A && t.env.bus.take 2 == [.memWrite 0x2050 0x9A, .memRead 0x2050 0x99]) = true := by decide

theorem test_dcrR :
    after [0x05] (fun s => { s with regs.b := 0x01, flags.cy := true })
      (fun t => t.flags == fl 1 0 1 1 1 && t.pc == 0x0101 && t.regs.b == 0x00) = true ∧
    after [0x05] (fun s => { s with regs.b := 0x00 })
      (fun t => t.flags == fl 0 1 1 0 0 && t.pc == 0x0101 && t.regs.b == 0xFF) = true := by decide

theorem test_dcrM :
    after [0x35] (fun s => ({ s with regs.h := 0x20, regs.l := 0x50 } : State).place 0x2050 0x80)
      (fun t => t.flags == fl 0 0 0 0 0 && t.pc == 0x0101 && t.byteAt 0x2050 == 0x7F && t.env.bus.take 2 == [.memWrite 0x2050 0x7F, .memRead 0x2050 0x80]) = true := by decide

theorem test_inx :
    after [0x23] (fun s => { s with regs.h := 0x12, regs.l := 0xFF, flags.z := true })
      (fun t => t.flags == fl 1 0 0 0 0 && t.pc == 0x0101 && t.regs.h == 0x13 && t.regs.l == 0x00) = true ∧
    after [0x33] (fun s => { s with sp := 0xFFFF })
      (fun t => t.flags == fl 0 0 0 0 0 && t.pc == 0x0101 && t.sp == 0x0000) = true := by decide

theorem test_dcx :
    after [0x1B] (fun s => { s with regs.d := 0x00, regs.e := 0x00 })
      (fun t => t.flags == fl 0 0 0 0 0 && t.pc == 0x0101 && t.regs.d == 0xFF && t.regs.e == 0xFF) = true ∧
    after [0x2B] (fun s => { s with regs.h := 0x98, regs.l := 0x00 })
      (fun t => t.pc == 0x0101 && t.regs.h == 0x97 && t.regs.l == 0xFF) = true := by decide

theorem test_dad :
    after [0x09] (fun s => { s with regs.b := 0x33, regs.c := 0x9F, regs.h := 0xA1, regs.l := 0x7B, flags.z := true, flags.s := true })
      (fun t => t.flags == fl 1 1 0 0 0 && t.pc == 0x0101 && t.regs.h == 0xD5 && t.regs.l == 0x1A) = true ∧
    after [0x39] (fun s => { s with regs.h := 0x00, regs.l := 0x01, sp := 0xFFFF })
      (fun t => t.pc == 0x0101 && t.regs.h == 0x00 && t.regs.l == 0x00 && t.flags.cy == true && t.sp == 0xFFFF) = true := by decide

theorem test_daa :
    after [0x27] (fun s => { s with regs.a := 0x9B })
      (fun t => t.flags == fl 0 0 0 1 1 && t.pc == 0x0101 && t.regs.a == 0x01) = true ∧
    after [0x27] (fun s => { s with regs.a := 0x7D })
      (fun t => t.flags == fl 0 1 0 0 1 && t.pc == 0x0101 && t.regs.a == 0x83) = true ∧
    after [0x27] (fun s => { s with regs.a := 0x10, flags.cy := true, flags.ac := true })
      (fun t => t.flags == fl 0 0 0 1 0 && t.pc == 0x0101 && t.regs.a == 0x76) = true ∧
    after [0x27] (fun s => { s with regs.a := 0x99 })
      (fun t => t.flags == fl 0 1 1 0 0 && t.pc == 0x0101 && t.regs.a == 0x99) = true ∧
    after [0x27] (fun s => { s with regs.a := 0x9A })
      (fun t => t.flags == fl 1 0 1 1 1 && t.pc == 0x0101 && t.regs.a == 0x00) = true ∧
    after [0x27] (fun s => { s with regs.a := 0x00, flags.cy := true })
      (fun t => t.flags == fl 0 0 1 1 0 && t.pc == 0x0101 && t.regs.a == 0x60) = true ∧
    after [0x27] (fun s => { s with regs.a := 0xFF, flags.cy := true, flags.ac := true })
      (fun t => t.flags == fl 0 0 1 1 1 && t.pc == 0x0101 && t.regs.a == 0x65) = true := by decide

/-! ### Logical group (95_test_vectors.md section 2.3) -/

theorem test_anaR :
    after [0xA0] (fun s => { s with regs.a := 0xFC, regs.b := 0x0F, flags.cy := true })
      (fun t => t.flags == fl 0 0 1 0 1 && t.pc == 0x0101 && t.regs.a == 0x0C) = true ∧
    after [0xA7] (fun s => { s with regs.a := 0x00, flags.cy := true })
      (fun t => t.flags == fl 1 0 1 0 1 && t.pc == 0x0101 && t.regs.a == 0x00) = true := by decide

theorem test_anaM :
    after [0xA6] (fun s => ({ s with regs.a := 0xF0, regs.h := 0x20, regs.l := 0x50, flags.cy := true } : State).place 0x2050 0x3C)
      (fun t => t.flags == fl 0 0 1 0 1 && t.pc == 0x0101 && t.regs.a == 0x30 && t.env.bus.take 1 == [.memRead 0x2050 0x3C]) = true := by decide

theorem test_ani :
    after [0xE6, 0x0F] (fun s => { s with regs.a := 0x3A, flags.cy := true })
      (fun t => t.flags == fl 0 0 1 0 1 && t.pc == 0x0102 && t.regs.a == 0x0A) = true := by decide

theorem test_xraR :
    after [0xAF] (fun s => { s with regs.a := 0x5C, flags.cy := true, flags.ac := true })
      (fun t => t.flags == fl 1 0 1 0 0 && t.pc == 0x0101 && t.regs.a == 0x00) = true ∧
    after [0xA8] (fun s => { s with regs.a := 0xFF, regs.b := 0x0F, flags.cy := true, flags.ac := true })
      (fun t => t.flags == fl 0 1 1 0 0 && t.pc == 0x0101 && t.regs.a == 0xF0) = true := by decide

theorem test_xraM :
    after [0xAE] (fun s => ({ s with regs.a := 0x5C, regs.h := 0x20, regs.l := 0x50, flags.cy := true, flags.ac := true } : State).place 0x2050 0x78)
      (fun t => t.flags == fl 0 0 1 0 0 && t.pc == 0x0101 && t.regs.a == 0x24 && t.env.bus.take 1 == [.memRead 0x2050 0x78]) = true := by decide

theorem test_xri :
    after [0xEE, 0x81] (fun s => { s with regs.a := 0x3B, flags.cy := true, flags.ac := true })
      (fun t => t.flags == fl 0 1 0 0 0 && t.pc == 0x0102 && t.regs.a == 0xBA) = true := by decide

theorem test_oraR :
    after [0xB1] (fun s => { s with regs.a := 0x33, regs.c := 0x0F, flags.cy := true, flags.ac := true })
      (fun t => t.flags == fl 0 0 1 0 0 && t.pc == 0x0101 && t.regs.a == 0x3F) = true ∧
    after [0xB7] (fun s => { s with regs.a := 0x00, flags.cy := true, flags.ac := true })
      (fun t => t.flags == fl 1 0 1 0 0 && t.pc == 0x0101 && t.regs.a == 0x00) = true := by decide

theorem test_oraM :
    after [0xB6] (fun s => ({ s with regs.a := 0x80, regs.h := 0x20, regs.l := 0x50, flags.cy := true, flags.ac := true } : State).place 0x2050 0x01)
      (fun t => t.flags == fl 0 1 1 0 0 && t.pc == 0x0101 && t.regs.a == 0x81 && t.env.bus.take 1 == [.memRead 0x2050 0x01]) = true := by decide

theorem test_ori :
    after [0xF6, 0x0F] (fun s => { s with regs.a := 0xB5, flags.cy := true, flags.ac := true })
      (fun t => t.flags == fl 0 1 0 0 0 && t.pc == 0x0102 && t.regs.a == 0xBF) = true := by decide

theorem test_cmpR :
    after [0xBB] (fun s => { s with regs.a := 0x02, regs.e := 0x05 })
      (fun t => t.flags == fl 0 1 0 1 0 && t.pc == 0x0101 && t.regs.a == 0x02) = true ∧
    after [0xBB] (fun s => { s with regs.a := 0xE5, regs.e := 0x05 })
      (fun t => t.flags == fl 0 1 0 0 1 && t.pc == 0x0101 && t.regs.a == 0xE5) = true := by decide

theorem test_cmpM :
    after [0xBE] (fun s => ({ s with regs.a := 0x40, regs.h := 0x20, regs.l := 0x50 } : State).place 0x2050 0x41)
      (fun t => t.flags == fl 0 1 1 1 0 && t.pc == 0x0101 && t.regs.a == 0x40 && t.env.bus.take 1 == [.memRead 0x2050 0x41]) = true := by decide

theorem test_cpi :
    after [0xFE, 0x40] (fun s => { s with regs.a := 0x4A })
      (fun t => t.flags == fl 0 0 1 0 1 && t.pc == 0x0102 && t.regs.a == 0x4A) = true ∧
    after [0xFE, 0x00] (fun s => { s with regs.a := 0x00, flags.cy := true })
      (fun t => t.flags == fl 1 0 1 0 1 && t.pc == 0x0102 && t.regs.a == 0x00) = true := by decide

theorem test_rlc :
    after [0x07] (fun s => { s with regs.a := 0xF2, flags.z := true })
      (fun t => t.flags == fl 1 0 0 1 0 && t.pc == 0x0101 && t.regs.a == 0xE5) = true ∧
    after [0x07] (fun s => { s with regs.a := 0x01, flags.cy := true })
      (fun t => t.pc == 0x0101 && t.regs.a == 0x02 && t.flags.cy == false) = true := by decide

theorem test_rrc :
    after [0x0F] (fun s => { s with regs.a := 0xF2, flags.cy := true })
      (fun t => t.pc == 0x0101 && t.regs.a == 0x79 && t.flags.cy == false) = true ∧
    after [0x0F] (fun s => { s with regs.a := 0x01 })
      (fun t => t.pc == 0x0101 && t.regs.a == 0x80 && t.flags.cy == true) = true := by decide

theorem test_ral :
    after [0x17] (fun s => { s with regs.a := 0xB5 })
      (fun t => t.pc == 0x0101 && t.regs.a == 0x6A && t.flags.cy == true) = true ∧
    after [0x17] (fun s => { s with regs.a := 0x00, flags.cy := true })
      (fun t => t.pc == 0x0101 && t.regs.a == 0x01 && t.flags.cy == false) = true := by decide

theorem test_rar :
    after [0x1F] (fun s => { s with regs.a := 0x6A, flags.cy := true })
      (fun t => t.pc == 0x0101 && t.regs.a == 0xB5 && t.flags.cy == false) = true ∧
    after [0x1F] (fun s => { s with regs.a := 0x01 })
      (fun t => t.pc == 0x0101 && t.regs.a == 0x00 && t.flags.cy == true && t.flags.z == false) = true := by decide

theorem test_cma :
    after [0x2F] (fun s => { s with regs.a := 0x51 })
      (fun t => t.flags == fl 0 0 0 0 0 && t.pc == 0x0101 && t.regs.a == 0xAE) = true := by decide

theorem test_cmc :
    after [0x3F] (fun s => { s with flags.cy := true })
      (fun t => t.pc == 0x0101 && t.flags.cy == false) = true ∧
    after [0x3F] id
      (fun t => t.pc == 0x0101 && t.flags.cy == true) = true := by decide

theorem test_stc :
    after [0x37] id
      (fun t => t.pc == 0x0101 && t.flags.cy == true) = true := by decide

/-! ### Branch group (95_test_vectors.md section 2.4) -/

theorem test_jmp :
    after [0xC3, 0x00, 0x3E] id
      (fun t => t.pc == 0x3E00) = true := by decide

theorem test_jnz :
    after [0xC2, 0x34, 0x12] id
      (fun t => t.pc == 0x1234) = true ∧
    after [0xC2, 0x34, 0x12] (fun s => { s with flags.z := true })
      (fun t => t.pc == 0x0103) = true := by decide

theorem test_jz :
    after [0xCA, 0x34, 0x12] id
      (fun t => t.pc == 0x0103) = true ∧
    after [0xCA, 0x34, 0x12] (fun s => { s with flags.z := true })
      (fun t => t.pc == 0x1234) = true := by decide

theorem test_jnc :
    after [0xD2, 0x34, 0x12] id
      (fun t => t.pc == 0x1234) = true ∧
    after [0xD2, 0x34, 0x12] (fun s => { s with flags.cy := true })
      (fun t => t.pc == 0x0103) = true := by decide

theorem test_jc :
    after [0xDA, 0x34, 0x12] id
      (fun t => t.pc == 0x0103) = true ∧
    after [0xDA, 0x34, 0x12] (fun s => { s with flags.cy := true })
      (fun t => t.pc == 0x1234) = true := by decide

theorem test_jpo :
    after [0xE2, 0x34, 0x12] id
      (fun t => t.pc == 0x1234) = true ∧
    after [0xE2, 0x34, 0x12] (fun s => { s with flags.p := true })
      (fun t => t.pc == 0x0103) = true := by decide

theorem test_jpe :
    after [0xEA, 0x34, 0x12] id
      (fun t => t.pc == 0x0103) = true ∧
    after [0xEA, 0x34, 0x12] (fun s => { s with flags.p := true })
      (fun t => t.pc == 0x1234) = true := by decide

theorem test_jp :
    after [0xF2, 0x34, 0x12] id
      (fun t => t.pc == 0x1234) = true ∧
    after [0xF2, 0x34, 0x12] (fun s => { s with flags.s := true })
      (fun t => t.pc == 0x0103) = true := by decide

theorem test_jm :
    after [0xFA, 0x34, 0x12] id
      (fun t => t.pc == 0x0103) = true ∧
    after [0xFA, 0x34, 0x12] (fun s => { s with flags.s := true })
      (fun t => t.pc == 0x1234) = true := by decide

theorem test_call :
    after [0xCD, 0x00, 0x20] (fun s => { s with sp := 0x3000 })
      (fun t => t.pc == 0x2000 && t.sp == 0x2FFE && t.byteAt 0x2FFF == 0x01 && t.byteAt 0x2FFE == 0x03 && t.env.bus.take 2 == [.memWrite 0x2FFE 0x03, .memWrite 0x2FFF 0x01]) = true ∧
    after [0xCD, 0x00, 0x20] (fun s => { s with sp := 0x0001 })
      (fun t => t.pc == 0x2000 && t.sp == 0xFFFF && t.byteAt 0x0000 == 0x01 && t.byteAt 0xFFFF == 0x03 && t.env.bus.take 2 == [.memWrite 0xFFFF 0x03, .memWrite 0x0000 0x01]) = true := by decide

theorem test_cnz :
    after [0xC4, 0x00, 0x20] (fun s => { s with sp := 0x3000 })
      (fun t => t.pc == 0x2000 && t.sp == 0x2FFE && t.env.bus.take 2 == [.memWrite 0x2FFE 0x03, .memWrite 0x2FFF 0x01]) = true ∧
    after [0xC4, 0x00, 0x20] (fun s => { s with flags.z := true, sp := 0x3000 })
      (fun t => t.pc == 0x0103 && t.sp == 0x3000) = true := by decide

theorem test_cz :
    after [0xCC, 0x00, 0x20] (fun s => { s with sp := 0x3000 })
      (fun t => t.pc == 0x0103 && t.sp == 0x3000) = true ∧
    after [0xCC, 0x00, 0x20] (fun s => { s with flags.z := true, sp := 0x3000 })
      (fun t => t.pc == 0x2000 && t.sp == 0x2FFE && t.env.bus.take 2 == [.memWrite 0x2FFE 0x03, .memWrite 0x2FFF 0x01]) = true := by decide

theorem test_cnc :
    after [0xD4, 0x00, 0x20] (fun s => { s with sp := 0x3000 })
      (fun t => t.pc == 0x2000 && t.sp == 0x2FFE && t.env.bus.take 2 == [.memWrite 0x2FFE 0x03, .memWrite 0x2FFF 0x01]) = true ∧
    after [0xD4, 0x00, 0x20] (fun s => { s with flags.cy := true, sp := 0x3000 })
      (fun t => t.pc == 0x0103 && t.sp == 0x3000) = true := by decide

theorem test_cc :
    after [0xDC, 0x00, 0x20] (fun s => { s with sp := 0x3000 })
      (fun t => t.pc == 0x0103 && t.sp == 0x3000) = true ∧
    after [0xDC, 0x00, 0x20] (fun s => { s with flags.cy := true, sp := 0x3000 })
      (fun t => t.pc == 0x2000 && t.sp == 0x2FFE && t.env.bus.take 2 == [.memWrite 0x2FFE 0x03, .memWrite 0x2FFF 0x01]) = true := by decide

theorem test_cpo :
    after [0xE4, 0x00, 0x20] (fun s => { s with sp := 0x3000 })
      (fun t => t.pc == 0x2000 && t.sp == 0x2FFE && t.env.bus.take 2 == [.memWrite 0x2FFE 0x03, .memWrite 0x2FFF 0x01]) = true ∧
    after [0xE4, 0x00, 0x20] (fun s => { s with flags.p := true, sp := 0x3000 })
      (fun t => t.pc == 0x0103 && t.sp == 0x3000) = true := by decide

theorem test_cpe :
    after [0xEC, 0x00, 0x20] (fun s => { s with sp := 0x3000 })
      (fun t => t.pc == 0x0103 && t.sp == 0x3000) = true ∧
    after [0xEC, 0x00, 0x20] (fun s => { s with flags.p := true, sp := 0x3000 })
      (fun t => t.pc == 0x2000 && t.sp == 0x2FFE && t.env.bus.take 2 == [.memWrite 0x2FFE 0x03, .memWrite 0x2FFF 0x01]) = true := by decide

theorem test_cp :
    after [0xF4, 0x00, 0x20] (fun s => { s with sp := 0x3000 })
      (fun t => t.pc == 0x2000 && t.sp == 0x2FFE && t.env.bus.take 2 == [.memWrite 0x2FFE 0x03, .memWrite 0x2FFF 0x01]) = true ∧
    after [0xF4, 0x00, 0x20] (fun s => { s with flags.s := true, sp := 0x3000 })
      (fun t => t.pc == 0x0103 && t.sp == 0x3000) = true := by decide

theorem test_cm :
    after [0xFC, 0x00, 0x20] (fun s => { s with sp := 0x3000 })
      (fun t => t.pc == 0x0103 && t.sp == 0x3000) = true ∧
    after [0xFC, 0x00, 0x20] (fun s => { s with flags.s := true, sp := 0x3000 })
      (fun t => t.pc == 0x2000 && t.sp == 0x2FFE && t.env.bus.take 2 == [.memWrite 0x2FFE 0x03, .memWrite 0x2FFF 0x01]) = true := by decide

theorem test_ret :
    after [0xC9] (fun s => ({ s with sp := 0x2FFE } : State).placeAll 0x2FFE [0x03, 0x01])
      (fun t => t.pc == 0x0103 && t.sp == 0x3000 && t.env.bus.take 2 == [.memRead 0x2FFF 0x01, .memRead 0x2FFE 0x03]) = true ∧
    after [0xC9] (fun s => ({ s with sp := 0xFFFF } : State).placeAll 0xFFFF [0x03, 0x01])
      (fun t => t.pc == 0x0103 && t.sp == 0x0001 && t.env.bus.take 2 == [.memRead 0x0000 0x01, .memRead 0xFFFF 0x03]) = true := by decide

theorem test_rnz :
    after [0xC0] (fun s => ({ s with sp := 0x2FFE } : State).placeAll 0x2FFE [0x03, 0x01])
      (fun t => t.pc == 0x0103 && t.sp == 0x3000 && t.env.bus.take 2 == [.memRead 0x2FFF 0x01, .memRead 0x2FFE 0x03]) = true ∧
    after [0xC0] (fun s => ({ s with flags.z := true, sp := 0x2FFE } : State).placeAll 0x2FFE [0x03, 0x01])
      (fun t => t.pc == 0x0101 && t.sp == 0x2FFE) = true := by decide

theorem test_rz :
    after [0xC8] (fun s => ({ s with sp := 0x2FFE } : State).placeAll 0x2FFE [0x03, 0x01])
      (fun t => t.pc == 0x0101 && t.sp == 0x2FFE) = true ∧
    after [0xC8] (fun s => ({ s with flags.z := true, sp := 0x2FFE } : State).placeAll 0x2FFE [0x03, 0x01])
      (fun t => t.pc == 0x0103 && t.sp == 0x3000 && t.env.bus.take 2 == [.memRead 0x2FFF 0x01, .memRead 0x2FFE 0x03]) = true := by decide

theorem test_rnc :
    after [0xD0] (fun s => ({ s with sp := 0x2FFE } : State).placeAll 0x2FFE [0x03, 0x01])
      (fun t => t.pc == 0x0103 && t.sp == 0x3000 && t.env.bus.take 2 == [.memRead 0x2FFF 0x01, .memRead 0x2FFE 0x03]) = true ∧
    after [0xD0] (fun s => ({ s with flags.cy := true, sp := 0x2FFE } : State).placeAll 0x2FFE [0x03, 0x01])
      (fun t => t.pc == 0x0101 && t.sp == 0x2FFE) = true := by decide

theorem test_rc :
    after [0xD8] (fun s => ({ s with sp := 0x2FFE } : State).placeAll 0x2FFE [0x03, 0x01])
      (fun t => t.pc == 0x0101 && t.sp == 0x2FFE) = true ∧
    after [0xD8] (fun s => ({ s with flags.cy := true, sp := 0x2FFE } : State).placeAll 0x2FFE [0x03, 0x01])
      (fun t => t.pc == 0x0103 && t.sp == 0x3000 && t.env.bus.take 2 == [.memRead 0x2FFF 0x01, .memRead 0x2FFE 0x03]) = true := by decide

theorem test_rpo :
    after [0xE0] (fun s => ({ s with sp := 0x2FFE } : State).placeAll 0x2FFE [0x03, 0x01])
      (fun t => t.pc == 0x0103 && t.sp == 0x3000 && t.env.bus.take 2 == [.memRead 0x2FFF 0x01, .memRead 0x2FFE 0x03]) = true ∧
    after [0xE0] (fun s => ({ s with flags.p := true, sp := 0x2FFE } : State).placeAll 0x2FFE [0x03, 0x01])
      (fun t => t.pc == 0x0101 && t.sp == 0x2FFE) = true := by decide

theorem test_rpe :
    after [0xE8] (fun s => ({ s with sp := 0x2FFE } : State).placeAll 0x2FFE [0x03, 0x01])
      (fun t => t.pc == 0x0101 && t.sp == 0x2FFE) = true ∧
    after [0xE8] (fun s => ({ s with flags.p := true, sp := 0x2FFE } : State).placeAll 0x2FFE [0x03, 0x01])
      (fun t => t.pc == 0x0103 && t.sp == 0x3000 && t.env.bus.take 2 == [.memRead 0x2FFF 0x01, .memRead 0x2FFE 0x03]) = true := by decide

theorem test_rp :
    after [0xF0] (fun s => ({ s with sp := 0x2FFE } : State).placeAll 0x2FFE [0x03, 0x01])
      (fun t => t.pc == 0x0103 && t.sp == 0x3000 && t.env.bus.take 2 == [.memRead 0x2FFF 0x01, .memRead 0x2FFE 0x03]) = true ∧
    after [0xF0] (fun s => ({ s with flags.s := true, sp := 0x2FFE } : State).placeAll 0x2FFE [0x03, 0x01])
      (fun t => t.pc == 0x0101 && t.sp == 0x2FFE) = true := by decide

theorem test_rm :
    after [0xF8] (fun s => ({ s with sp := 0x2FFE } : State).placeAll 0x2FFE [0x03, 0x01])
      (fun t => t.pc == 0x0101 && t.sp == 0x2FFE) = true ∧
    after [0xF8] (fun s => ({ s with flags.s := true, sp := 0x2FFE } : State).placeAll 0x2FFE [0x03, 0x01])
      (fun t => t.pc == 0x0103 && t.sp == 0x3000 && t.env.bus.take 2 == [.memRead 0x2FFF 0x01, .memRead 0x2FFE 0x03]) = true := by decide

theorem test_rst :
    after [0xC7] (fun s => { s with sp := 0x3000 })
      (fun t => t.pc == 0x0000 && t.sp == 0x2FFE && t.byteAt 0x2FFF == 0x01 && t.byteAt 0x2FFE == 0x01 && t.env.bus.take 2 == [.memWrite 0x2FFE 0x01, .memWrite 0x2FFF 0x01]) = true ∧
    after [0xCF] (fun s => { s with sp := 0x3000 })
      (fun t => t.pc == 0x0008 && t.sp == 0x2FFE && t.byteAt 0x2FFF == 0x01 && t.byteAt 0x2FFE == 0x01 && t.env.bus.take 2 == [.memWrite 0x2FFE 0x01, .memWrite 0x2FFF 0x01]) = true ∧
    after [0xD7] (fun s => { s with sp := 0x3000 })
      (fun t => t.pc == 0x0010 && t.sp == 0x2FFE && t.byteAt 0x2FFF == 0x01 && t.byteAt 0x2FFE == 0x01 && t.env.bus.take 2 == [.memWrite 0x2FFE 0x01, .memWrite 0x2FFF 0x01]) = true ∧
    after [0xDF] (fun s => { s with sp := 0x3000 })
      (fun t => t.pc == 0x0018 && t.sp == 0x2FFE && t.byteAt 0x2FFF == 0x01 && t.byteAt 0x2FFE == 0x01 && t.env.bus.take 2 == [.memWrite 0x2FFE 0x01, .memWrite 0x2FFF 0x01]) = true ∧
    after [0xE7] (fun s => { s with sp := 0x3000 })
      (fun t => t.pc == 0x0020 && t.sp == 0x2FFE && t.byteAt 0x2FFF == 0x01 && t.byteAt 0x2FFE == 0x01 && t.env.bus.take 2 == [.memWrite 0x2FFE 0x01, .memWrite 0x2FFF 0x01]) = true ∧
    after [0xEF] (fun s => { s with sp := 0x3000 })
      (fun t => t.pc == 0x0028 && t.sp == 0x2FFE && t.byteAt 0x2FFF == 0x01 && t.byteAt 0x2FFE == 0x01 && t.env.bus.take 2 == [.memWrite 0x2FFE 0x01, .memWrite 0x2FFF 0x01]) = true ∧
    after [0xF7] (fun s => { s with sp := 0x3000 })
      (fun t => t.pc == 0x0030 && t.sp == 0x2FFE && t.byteAt 0x2FFF == 0x01 && t.byteAt 0x2FFE == 0x01 && t.env.bus.take 2 == [.memWrite 0x2FFE 0x01, .memWrite 0x2FFF 0x01]) = true ∧
    after [0xFF] (fun s => { s with sp := 0x3000 })
      (fun t => t.pc == 0x0038 && t.sp == 0x2FFE && t.byteAt 0x2FFF == 0x01 && t.byteAt 0x2FFE == 0x01 && t.env.bus.take 2 == [.memWrite 0x2FFE 0x01, .memWrite 0x2FFF 0x01]) = true := by decide

theorem test_pchl :
    after [0xE9] (fun s => { s with regs.h := 0x41, regs.l := 0x3E })
      (fun t => t.pc == 0x413E && t.regs.h == 0x41 && t.regs.l == 0x3E) = true := by decide

/-! ### Stack, I/O and machine control group (95_test_vectors.md section 2.5) -/

theorem test_push :
    after [0xC5] (fun s => { s with regs.b := 0x8F, regs.c := 0x9D, sp := 0x3A2C })
      (fun t => t.pc == 0x0101 && t.sp == 0x3A2A && t.byteAt 0x3A2B == 0x8F && t.byteAt 0x3A2A == 0x9D && t.env.bus.take 2 == [.memWrite 0x3A2A 0x9D, .memWrite 0x3A2B 0x8F]) = true ∧
    after [0xD5] (fun s => { s with regs.d := 0x12, regs.e := 0x34, sp := 0x0001 })
      (fun t => t.pc == 0x0101 && t.sp == 0xFFFF && t.byteAt 0x0000 == 0x12 && t.byteAt 0xFFFF == 0x34 && t.env.bus.take 2 == [.memWrite 0xFFFF 0x34, .memWrite 0x0000 0x12]) = true := by decide

theorem test_pop :
    after [0xE1] (fun s => ({ s with sp := 0x1239 } : State).placeAll 0x1239 [0x3D, 0x93])
      (fun t => t.pc == 0x0101 && t.regs.h == 0x93 && t.regs.l == 0x3D && t.sp == 0x123B && t.env.bus.take 2 == [.memRead 0x123A 0x93, .memRead 0x1239 0x3D]) = true ∧
    after [0xC1] (fun s => ({ s with sp := 0xFFFF } : State).placeAll 0xFFFF [0x3D, 0x93])
      (fun t => t.pc == 0x0101 && t.regs.b == 0x93 && t.regs.c == 0x3D && t.sp == 0x0001 && t.env.bus.take 2 == [.memRead 0x0000 0x93, .memRead 0xFFFF 0x3D]) = true := by decide

theorem test_popPsw :
    after [0xF1] (fun s => ({ s with sp := 0x2C00 } : State).placeAll 0x2C00 [0xC3, 0xFF])
      (fun t => t.flags == fl 1 1 0 1 0 && t.pc == 0x0101 && t.regs.a == 0xFF && t.sp == 0x2C02 && t.env.bus.take 2 == [.memRead 0x2C01 0xFF, .memRead 0x2C00 0xC3]) = true ∧
    after [0xF1] (fun s => ({ s with sp := 0x2C00, flags.z := true, flags.s := true, flags.p := true, flags.cy := true, flags.ac := true } : State).placeAll 0x2C00 [0x2A, 0x01])
      (fun t => t.flags == fl 0 0 0 0 0 && t.pc == 0x0101 && t.regs.a == 0x01 && t.sp == 0x2C02 && t.env.bus.take 2 == [.memRead 0x2C01 0x01, .memRead 0x2C00 0x2A]) = true := by decide

theorem test_xthl :
    after [0xE3] (fun s => ({ s with sp := 0x10AD, regs.h := 0x0B, regs.l := 0x3C } : State).placeAll 0x10AD [0xF0, 0x0D])
      (fun t => t.pc == 0x0101 && t.regs.h == 0x0D && t.regs.l == 0xF0 && t.sp == 0x10AD && t.byteAt 0x10AD == 0x3C && t.byteAt 0x10AE == 0x0B && t.env.bus.take 4 == [.memWrite 0x10AE 0x0B, .memWrite 0x10AD 0x3C, .memRead 0x10AE 0x0D, .memRead 0x10AD 0xF0]) = true := by decide

theorem test_sphl :
    after [0xF9] (fun s => { s with regs.h := 0x50, regs.l := 0x6C })
      (fun t => t.pc == 0x0101 && t.sp == 0x506C && t.regs.h == 0x50 && t.regs.l == 0x6C) = true := by decide

theorem test_inPort :
    after [0xDB, 0x10] (fun s => { s with regs.a := 0x00, env.inputs := [{ Inputs.idle with portByte := some 0xA5 }] })
      (fun t => t.flags == fl 0 0 0 0 0 && t.pc == 0x0102 && t.regs.a == 0xA5 && t.env.bus.take 1 == [.ioRead 0x10 0xA5]) = true := by decide

theorem test_outPort :
    after [0xD3, 0x10] (fun s => { s with regs.a := 0x5A })
      (fun t => t.pc == 0x0102 && t.regs.a == 0x5A && t.env.bus.take 1 == [.ioWrite 0x10 0x5A]) = true := by decide

theorem test_ei :
    after [0xFB] (fun s => { s with irq.ie := false })
      (fun t => t.pc == 0x0101 && t.irq.ie == false && t.irq.eiPending == true) = true := by decide

theorem test_di :
    after [0xF3] (fun s => { s with irq.ie := true })
      (fun t => t.pc == 0x0101 && t.irq.ie == false && t.irq.eiPending == false) = true ∧
    after [0xF3] (fun s => { s with irq.ie := false, irq.eiPending := true })
      (fun t => t.pc == 0x0101 && t.irq.ie == false && t.irq.eiPending == false) = true := by decide

theorem test_nop :
    after [0x00] (fun s => { s with regs.a := 0x12, flags.z := true })
      (fun t => t.flags == fl 1 0 0 0 0 && t.regs.a == 0x12 && t.pc == 0x0101) = true := by decide

theorem test_hlt :
    after [0x76] (fun s => { s with regs.a := 0x12 })
      (fun t => t.regs.a == 0x12 && t.pc == 0x0101 && t.halted == true) = true := by decide

theorem test_rim :
    after [0x20] (fun s => { s with env.inputs := [{ Inputs.idle with serialIn := some false, rimPin65 := some false, rimPin55 := some false }] })
      (fun t => t.pc == 0x0101 && t.regs.a == 0x07) = true := by decide

theorem test_sim :
    after [0x30] (fun s => { s with regs.a := 0x0B })
      (fun t => t.pc == 0x0101 && t.irq.m75 == false && t.irq.m65 == true && t.irq.m55 == true && t.irq.i75 == false && t.sod == false) = true ∧
    after [0x30] (fun s => { s with regs.a := 0x03, irq.m75 := true, irq.m65 := false, irq.m55 := false })
      (fun t => t.pc == 0x0101 && t.irq.m75 == true && t.irq.m65 == false && t.irq.m55 == false) = true ∧
    after [0x30] (fun s => { s with regs.a := 0x10, irq.i75 := true })
      (fun t => t.pc == 0x0101 && t.irq.m75 == true && t.irq.m65 == true && t.irq.m55 == true && t.irq.i75 == false) = true ∧
    after [0x30] (fun s => { s with regs.a := 0xC0 })
      (fun t => t.pc == 0x0101 && t.sod == true && t.irq.m75 == true && t.irq.m65 == true && t.irq.m55 == true) = true ∧
    after [0x30] (fun s => { s with regs.a := 0x80, sod := false })
      (fun t => t.pc == 0x0101 && t.sod == false) = true ∧
    after [0x30] (fun s => { s with regs.a := 0x40, sod := true })
      (fun t => t.pc == 0x0101 && t.sod == false) = true ∧
    after [0x30] (fun s => { s with regs.a := 0x20, sod := true, irq.i75 := true, irq.m75 := false, irq.m65 := true, irq.m55 := false })
      (fun t => t.pc == 0x0101 && t.sod == true && t.irq.i75 == true && t.irq.m75 == false && t.irq.m65 == true && t.irq.m55 == false) = true := by decide

/-- JNZ not taken at 0xFFFE: pc wraps to 0x0001. -/
theorem test_jnz_not_taken_wraps :
    stepPasses { (State.reset.setPc 0xFFFE).placeAll 0xFFFE [0xC2, 0x34] with flags.z := true } (fun t => t.pc == 0x0001) = true := by
  decide

/-- PUSH PSW: SP, and the two flag words the table gives for X bits 000 and 111. -/
theorem test_pushPsw :
    after [0xF5] (fun s => { s with sp := 0x502A }) (fun t => t.sp == 0x5028) = true ∧
    flagWord (fl 1 0 1 1 0) 0b000 = 0x45 ∧ flagWord (fl 1 0 1 1 0) 0b111 = 0x6F ∧ flagWord (fl 1 1 1 1 1) 0b000 = 0xD5 := by
  decide

/-- PUSH PSW stores A at SP - 1 whatever the X bits are. -/
theorem test_pushPsw_high_byte :
    ∃ t, execPushPsw { State.reset with regs.a := 0x1F, sp := 0x502A } = .next t ∧ t.byteAt 0x5029 = 0x1F := by
  exact ⟨_, rfl, (State.byteAt_writeByte_other _ _ _ _ (by decide)).trans
    ((State.byteAt_writeByte_same _ _ _ (by decide) (by decide)).trans (by simp))⟩

/-- SIM: a change of SOD is an output event, latest first; writing the level it already has is none (60_exceptions.md R303). -/
theorem test_sim_serial_output :
    after [0x30] (fun s => { s with regs.a := 0xC0 }) (fun t => t.env.bus == [.serialOut true, .fetch 0x0100 0x30]) = true ∧
    after [0x30] (fun s => { s with regs.a := 0xC0, sod := true }) (fun t => t.env.bus == [.fetch 0x0100 0x30]) = true := by decide

/-- The second RIM row: SID 1, I75 1, RST 5.5 pending, IE 1, M65 1 give 0xDA. -/
theorem test_rim_all_bits :
    (match execRim { State.reset with
        irq := { State.reset.irq with ie := true, i75 := true, m75 := false, m65 := true, m55 := false }
        env.inputs := [{ Inputs.idle with serialIn := some true, rimPin65 := some false, rimPin55 := some true }] } with
      | .next t => t.regs.a == 0xDA
      | _ => false) = true := by decide

theorem test_undefined_bytes_are_refused :
    step (boot [0x08]) = .refused (.undefinedOpcode 0x08) ∧ step (boot [0xFD]) = .refused (.undefinedOpcode 0xFD) :=
  ⟨rfl, rfl⟩

/-- A table word is run as the first instruction after reset. -/
theorem test_withFetchWord :
    stepPasses (State.reset.withFetchWord 24 0x1234C3) (fun t => t.pc == 0x1234) = true ∧
    stepPasses (State.reset.withFetchWord 16 0x2C3E) (fun t => t.regs.a == 0x2C && t.pc == 0x0002) = true := by decide

/-! ### The platform (20_memory.md R64) -/

/-- A machine whose upper half is ROM but for an unpopulated top page. -/
def romAbove : State :=
  { boot [0x77] with
    env.params.memMap := [{ base := 0xFF00, size := 0x100, kind := .unpopulated }, { base := 0x8000, size := 0x8000, kind := .rom }]
    regs.a := 0x3E }

theorem test_write_to_rom_leaves_it :
    stepPasses { romAbove with regs.h := 0x90 } (fun t => t.byteAt 0x9000 == 0x00 && t.env.bus.take 1 == [.memWrite 0x9000 0x3E])
      = true := by decide

theorem test_kinds :
    romAbove.kindAt 0x7FFF = .ram ∧ romAbove.kindAt 0x8000 = .rom ∧ romAbove.kindAt 0xFF00 = .unpopulated := by decide

/-! ### Boundaries (96_test_vectors_interrupts.md sections 1 and 2) -/

/-- A machine at an instruction boundary, IE = 1, SP = 0x3000, with these inputs. -/
def waiting (pc : Word) (now : Inputs) : State :=
  { boot [] with pc := pc, sp := 0x3000, irq.ie := true, env.inputs := [now] }

theorem test_entry_rst75 :
    stepPasses { waiting 0x1234 Inputs.idle with irq.i75 := true, irq.m75 := false } (fun t =>
      t.byteAt 0x2FFF == 0x12 && t.byteAt 0x2FFE == 0x34 && t.sp == 0x2FFE && t.pc == 0x003C && !t.irq.ie && !t.irq.i75) = true := by
  decide

theorem test_masked_rst75_waits :
    stepPasses { waiting 0x0200 Inputs.idle with irq.i75 := true } (fun t => t.pc == 0x0201 && t.irq.i75) = true := by decide

theorem test_entry_trap :
    stepPasses (waiting 0x0200 { Inputs.idle with trap := true }) (fun t =>
      t.irq.ieBeforeTrap && t.irq.trapTaken && !t.irq.ie && t.byteAt 0x2FFF == 0x02 && t.byteAt 0x2FFE == 0x00 && t.pc == 0x0024)
      = true := by decide

theorem test_rst75_before_others :
    stepPasses { waiting 0x0300 { Inputs.idle with rst75Edge := true, pin65 := true, pin55 := true, intr := true } with
        irq.m75 := false, irq.m65 := false, irq.m55 := false }
      (fun t => t.pc == 0x003C && !t.irq.i75 && t.byteAt 0x2FFF == 0x03) = true := by decide

theorem test_entry_rst65 :
    stepPasses { waiting 0x0300 { Inputs.idle with pin65 := true, pin55 := true } with
        irq.i75 := true, irq.m65 := false, irq.m55 := false } (fun t => t.pc == 0x0034 && t.irq.i75 && t.sp == 0x2FFE) = true := by
  decide

theorem test_entry_rst55_leaves_halt :
    stepPasses { waiting 0x000B { Inputs.idle with pin55 := true } with irq.m55 := false, halted := true } (fun t =>
      t.pc == 0x002C && !t.halted && t.byteAt 0x2FFF == 0x00 && t.byteAt 0x2FFE == 0x0B) = true := by decide

theorem test_trap_wins_and_keeps_i75 :
    stepPasses { waiting 0x0300 { Inputs.idle with trap := true, rst75Edge := true } with irq.m75 := false }
      (fun t => t.pc == 0x0024 && t.irq.i75) = true := by decide

theorem test_acknowledge_rst5 :
    stepPasses (waiting 0x0456 { Inputs.idle with intr := true, inta1 := 0xEF }) (fun t =>
      t.pc == 0x0028 && t.byteAt 0x2FFF == 0x04 && t.byteAt 0x2FFE == 0x56 && t.sp == 0x2FFE && !t.irq.ie) = true := by decide

theorem test_acknowledge_call :
    stepPasses (waiting 0x0456 { Inputs.idle with intr := true, inta1 := 0xCD, inta2 := 0x00, inta3 := 0x20 })
      (fun t => t.pc == 0x2000 && t.byteAt 0x2FFE == 0x56) = true := by decide

theorem test_acknowledge_refusals :
    step (waiting 0x0456 { Inputs.idle with intr := true, inta1 := 0xFB }) = .refused (.prohibitedAcknowledge 0xFB) ∧
    step (waiting 0x0456 { Inputs.idle with intr := true, inta1 := 0x00 }) = .refused (.undescribedAcknowledge 0x00) :=
  ⟨rfl, rfl⟩

theorem test_halted_stays :
    stepPasses { waiting 0x0300 { Inputs.idle with pin55 := true } with irq.ie := false, irq.m55 := false, halted := true }
      (fun t => t.pc == 0x0300 && t.halted && t.env.bus == []) = true := by decide

theorem test_reset_in :
    stepPasses { waiting 0x0300 { Inputs.idle with resetIn := true, trap := true } with sod := true, halted := true, irq.m65 := false }
      (fun t => t.pc == 0x0000 && t.irq.m65 && !t.sod && !t.halted && !t.irq.ie && t.env.bus == [.serialOut false]) = true := by decide

/-- EI; NOP with RST 7.5 waiting: the NOP runs, then the interrupt is taken. -/
theorem test_ei_delay :
    stepPasses { boot [0xFB, 0x00] with irq.i75 := true, irq.m75 := false } (fun t =>
      t.pc == 0x0101 && !t.irq.ie && t.irq.eiPending && stepPasses t (fun u =>
        u.pc == 0x0102 && u.irq.ie && !u.irq.eiPending && stepPasses u (fun w => w.pc == 0x003C))) = true := by decide

theorem test_ei_then_di :
    stepPasses { boot [0xF3] with irq.eiPending := true } (fun t => !t.irq.ie && !t.irq.eiPending) = true ∧
    stepPasses { boot [0xFB] with irq.eiPending := true } (fun t => !t.irq.ie && t.irq.eiPending) = true := by decide

theorem test_rim_after_trap :
    stepPasses { boot [0x20] with
        irq := { State.reset.irq with trapTaken := true, ieBeforeTrap := true }
        env.inputs := [{ Inputs.idle with serialIn := some false, rimPin65 := some false, rimPin55 := some false }] }
      (fun t => t.regs.a == 0x0F && !t.irq.trapTaken) = true := by decide

/-! ### Witnesses: for each statement with hypotheses, a state and operands that meet them together -/

/-- A machine with a stack in RAM, data under H:L, and a JMP at pc. -/
def sample : State := { boot [0xC3, 0x00, 0x3E] with sp := 0x3000, regs.h := 0x20, regs.l := 0x50 }

theorem sample_quiet : sample.Quiet := ⟨rfl, fun src => by cases src <;> rfl⟩

/-- With no region in the map every address is RAM. -/
theorem allRam (s : State) (a : Word) (h : s.env.params.memMap = []) : s.IsRam a ∧ s.Populated a := by
  have hr : s.kindAt a = .ram := by rw [State.kindAt, h]; rfl
  exact ⟨hr, by rw [State.Populated, hr]; decide⟩

theorem witness_MoveToMemory : sample.mem.wf = true := by decide

theorem witness_StoreAccumulator : sample.mem.wf = true := by decide

theorem witness_LoadAndStoreHLDirect : sample.mem.wf = true := by decide

theorem witness_Increments : sample.mem.wf = true := by decide

theorem witness_Decrements : sample.mem.wf = true := by decide

theorem witness_ConditionalCalls : sample.mem.wf = true := by decide

theorem witness_PushPair : sample.mem.wf = true := by decide

theorem witness_PushStatusWord : sample.mem.wf = true := by decide

theorem witness_ExchangeTopOfStack : sample.mem.wf = true := by decide

theorem witness_CallAndRestart : sample.mem.wf = true ∧ 0 < 8 ∧ 7 < 8 := by decide

theorem witness_DecimalSumIsDecimal :
    99 < 100 ∧ ({ sample with regs.a := 0x99 } : State).regs.a = packedDigits 99 ∧ 0 < 100 ∧ sample.regs.a = packedDigits 0 := by
  decide

theorem witness_BranchConditions : 0 < 8 ∧ 7 < 8 ∧ inBranchGroup (.jmp 0) = true ∧ inBranchGroup .pchl = true := by decide

theorem witness_PushThenPopStatusWord :
    sample.mem.wf = true ∧ sample.IsRam (sample.sp - 1) ∧ sample.IsRam (sample.sp - 2) :=
  ⟨by decide, (allRam _ _ rfl).1, (allRam _ _ rfl).1⟩

theorem witness_CallThenReturn :
    sample.mem.wf = true ∧ sample.IsRam (sample.sp - 1) ∧ sample.IsRam (sample.sp - 2) ∧ 7 < 8 ∧ 0 < 8 :=
  ⟨by decide, (allRam _ _ rfl).1, (allRam _ _ rfl).1, by decide, by decide⟩

theorem witness_ExchangeTopOfStackTwice : sample.mem.wf = true ∧ sample.IsRam sample.sp ∧ sample.IsRam (sample.sp + 1) :=
  ⟨by decide, (allRam _ _ rfl).1, (allRam _ _ rfl).1⟩

theorem witness_InputFromPort :
    ({ sample with env.inputs := [{ Inputs.idle with portByte := some 0xA5 }] } : State).now.portByte = some 0xA5 := by decide

theorem witness_NoOperation :
    (State.reset.Quiet ∧ State.reset.halted = false ∧ State.reset.Populated State.reset.pc ∧
      State.reset.byteAt State.reset.pc = 0) ∧ decodeOp 0 0 0 = .nop :=
  ⟨⟨⟨rfl, fun src => by cases src <;> rfl⟩, rfl, (allRam _ _ rfl).2, rfl⟩, rfl⟩

theorem witness_HaltStops : ({ sample with halted := true } : State).Quiet ∧ ({ sample with halted := true } : State).halted = true :=
  ⟨sample_quiet, rfl⟩

theorem witness_ReadInterruptMasks :
    ({ sample with irq.trapTaken := true } : State).irq.trapTaken = true ∧
    (sample.irq.trapTaken = false ∧ sample.irq.eiPending = false) ∧
    ({ sample with env.inputs := [{ Inputs.idle with rimPin55 := some true, rimPin65 := some false, serialIn := some true }] }
      : State).now.rimPin55 = some true := by decide

/-- A = 0xFF meets the three clauses for a bit that is 1, A = 0x00 the three for a bit that is 0. -/
theorem witness_SetInterruptMasks :
    ({ sample with regs.a := 0xFF } : State).regs.a &&& 0x58 = 0x58 ∧ sample.regs.a &&& 0x58 = 0x00 := by decide

theorem witness_FlagsChangeOnlyAsListed :
    (∃ t, exec .nop sample = .next t) ∧ flagWrite .nop = .none ∧ (∃ t, exec .stc sample = .next t) ∧ flagWrite .stc = .onlyCy ∧
    (∃ t, exec (.inrR .b) sample = .next t) ∧ flagWrite (.inrR .b) = .allButCy :=
  ⟨⟨_, rfl⟩, rfl, ⟨_, rfl⟩, rfl, ⟨_, rfl⟩, rfl⟩

theorem witness_MasksAndSodChangeOnlyBySim :
    (∃ t, step sample = .next t) ∧ sample.now.resetIn = false ∧ sample.latchRequests.winner = none ∧ sample.halted = false ∧
    sample.latchRequests.fetch.1 ≠ .sim ∧
    stepPasses { boot [0x30] with regs.a := 0xC0 } (fun t => t.sod) = true :=
  ⟨⟨_, rfl⟩, rfl, rfl, rfl, by decide, by decide⟩

theorem witness_EncodedInstructionsDecode : (Instr.rst 0).WellFormed ∧ (Instr.rst 7).WellFormed ∧ (Instr.lda 0xFFFF).WellFormed := by
  decide

theorem witness_DecodedBytesAreTheEncoding : decode [0xC3, 0x00, 0x3E, 0x99] = .ok (.jmp 0x3E00, [0x99]) := by decide

theorem sample_holds : sample.Holds (.jmp 0x3E00) := ⟨⟨_, rfl⟩, fun _ _ => (allRam _ _ rfl).2⟩

theorem witness_StepRunsDecodedInstruction : sample.Quiet ∧ sample.halted = false ∧ sample.Holds (.jmp 0x3E00) :=
  ⟨sample_quiet, rfl, sample_holds⟩

/-- A JNZ whose condition is false: byte 3 is not read. -/
def untaken : State := { boot [0xC2, 0x34, 0x12] with flags.z := true }

theorem witness_BusFollowsMachineCycles :
    (sample.Quiet ∧ sample.halted = false ∧ sample.Holds (.jmp 0x3E00) ∧ ∃ t, step sample = .next t) ∧
    untaken.Quiet ∧ untaken.halted = false ∧ untaken.Holds (.jnz 0x1234) ∧ ∃ t, step untaken = .next t :=
  ⟨⟨sample_quiet, rfl, sample_holds, _, rfl⟩, ⟨rfl, fun src => by cases src <;> rfl⟩, rfl,
    ⟨⟨_, rfl⟩, fun _ _ => (allRam _ _ rfl).2⟩, _, rfl⟩

/-- The boundary directly after an EI, this byte at pc, an unmasked RST 6.5 waiting. -/
def afterEi (op : Byte) : State :=
  { boot [op] with irq.eiPending := true, irq.m65 := false, env.inputs := [{ Inputs.idle with pin65 := true }] }

/-- The hypotheses hold before an EI, a DI, another instruction, and an undefined byte (which refuses). -/
theorem witness_EnableTakesEffectAfterNextInstruction :
    (∀ op, (afterEi op).irq.eiPending = true ∧ (afterEi op).now.resetIn = false ∧ (afterEi op).env.trapReq = false ∧
      (afterEi op).now.trap = false ∧ (afterEi op).halted = false) ∧
    ((afterEi 0xFB).Holds .ei ∧ ∃ t, step (afterEi 0xFB) = .next t) ∧
    ((afterEi 0xF3).Holds .di ∧ ∃ t, step (afterEi 0xF3) = .next t) ∧
    ((afterEi 0x00).Holds .nop ∧ ∃ t, step (afterEi 0x00) = .next t) ∧
    (afterEi 0x08).Holds .undef08 ∧ step (afterEi 0x08) = .refused (.undefinedOpcode 0x08) :=
  ⟨fun _ => ⟨rfl, rfl, rfl, rfl, rfl⟩, ⟨⟨⟨_, rfl⟩, fun _ _ => (allRam _ _ rfl).2⟩, _, rfl⟩,
    ⟨⟨⟨_, rfl⟩, fun _ _ => (allRam _ _ rfl).2⟩, _, rfl⟩, ⟨⟨⟨_, rfl⟩, fun _ _ => (allRam _ _ rfl).2⟩, _, rfl⟩,
    ⟨⟨_, rfl⟩, fun _ _ => (allRam _ _ rfl).2⟩, rfl⟩

/-- Unmasked requests on everything but TRAP. -/
def crowded : State :=
  { waiting 0x0300 { Inputs.idle with pin65 := true, pin55 := true, intr := true } with
    irq.i75 := true, irq.m75 := false, irq.m65 := false, irq.m55 := false }

/-- The order the statement is about, and each of its six outcomes. -/
theorem witness_HighestPriorityRequestWins :
    crowded.env.params.priority = [.trap, .rst75, .rst65, .rst55, .intr] ∧
    ({ crowded with env.trapReq := true } : State).winner = some .trap ∧
    ({ crowded with irq.ie := false } : State).winner = none ∧ ({ crowded with irq.eiPending := true } : State).winner = none ∧
    crowded.winner = some .rst75 ∧ ({ crowded with irq.m75 := true } : State).winner = some .rst65 ∧
    ({ crowded with irq.m75 := true, irq.m65 := true } : State).winner = some .rst55 ∧
    ({ crowded with irq.m75 := true, irq.m65 := true, irq.m55 := true } : State).winner = some .intr ∧
    sample.winner = none := by decide

/-- Each of the four vectored sources is taken somewhere. -/
theorem witness_VectoredInterruptEntry :
    crowded.mem.wf = true ∧ crowded.now.resetIn = false ∧
    ({ crowded with env.trapReq := true } : State).latchRequests.winner = some .trap ∧
    crowded.latchRequests.winner = some .rst75 ∧
    ({ crowded with irq.m75 := true } : State).latchRequests.winner = some .rst65 ∧
    ({ crowded with irq.m75 := true, irq.m65 := true } : State).latchRequests.winner = some .rst55 ∧
    [Source.trap, .rst75, .rst65, .rst55].map (vectorOf crowded.env.params) =
      [some 0x0024, some 0x003C, some 0x0034, some 0x002C] := by decide

/-- An INTR request whose device drives this byte. -/
def driven (op : Byte) : State := waiting 0x0456 { Inputs.idle with intr := true, inta1 := op }

/-- The hypotheses hold whatever byte is driven, and each clause has its bytes: RST 0 and RST 7, CALL, EI and DI, another. -/
theorem witness_AcknowledgeOfIntr :
    (∀ op, (driven op).mem.wf = true ∧ (driven op).now.resetIn = false ∧ (driven op).latchRequests.winner = some .intr ∧
      (driven op).now.inta1 = op) ∧
    (∀ op ∈ [(0xC7 : Byte), 0xFF], op.toNat % 8 = 7 ∧ 192 ≤ op.toNat ∧ op ≠ 0xCD) ∧
    (∀ op ∈ [(0xCD : Byte), 0xFB, 0xF3, 0x00, 0xBF], ¬ (op.toNat % 8 = 7 ∧ 192 ≤ op.toNat)) :=
  ⟨fun _ => ⟨rfl, rfl, rfl, rfl⟩, by decide, by decide⟩

theorem witness_FirstRimAfterTrap :
    crowded.now.resetIn = false ∧ ({ crowded with env.trapReq := true } : State).latchRequests.winner = some .trap ∧
    crowded.irq.eiPending = false := by decide

theorem witness_ResetInOverridesAll :
    ({ crowded with env.inputs := [{ Inputs.idle with resetIn := true }] } : State).now.resetIn = true := by decide

theorem witness_EveryStepKeepsInvariant : State.Inv sample ∧ ∃ t, step sample = .next t :=
  ⟨⟨by decide, by decide⟩, _, rfl⟩

/-- A step that writes to a ROM address. -/
theorem witness_NonRamNeverChanges :
    (∃ t, step { romAbove with regs.h := 0x90 } = .next t) ∧ ¬ ({ romAbove with regs.h := 0x90 } : State).IsRam 0x9000 :=
  ⟨⟨_, rfl⟩, by rw [State.IsRam]; decide⟩

/-- Each of the outcomes happens. -/
theorem witness_StopsOnlyWhereSpecRefuses :
    (∃ t, step sample = .next t) ∧ step (boot [0xDD]) = .refused (.undefinedOpcode 0xDD) ∧
    step (driven 0xFB) = .refused (.prohibitedAcknowledge 0xFB) ∧ step (driven 0xF3) = .refused (.prohibitedAcknowledge 0xF3) ∧
    step (driven 0xBF) = .refused (.undescribedAcknowledge 0xBF) ∧ step (driven 0xCC) = .refused (.undescribedAcknowledge 0xCC) :=
  ⟨⟨_, rfl⟩, rfl, rfl, rfl, rfl, rfl⟩

end Sys2Proof.Tests
end

section
/-! PROOFS. An instruction's row: its bytes, that they decode to it, its machine cycles and states. One rule for each length
an instruction can have (30_encoding.md R90, R91), then the rows of the data transfer group. -/

namespace Sys2Proof.Machine

/-! ### One rule a length -/

/-- The row of an instruction of one byte. -/
theorem rowIs_one {i : Instr} {op : Byte} {b : Bool} {n : Nat} (enc : encode i = [op]) (len : opLength op = 1)
    (dec : decodeOp op 0 0 = i) (num : op.toNat = n) : RowIs i b [n] (machineCycles i b) (tStates i b) := by
  have decodes : decode [op] = .ok (i, []) := by simp only [decode, len, dec]
  exact ⟨by simp [enc, num], by rw [enc, decodes], rfl, rfl⟩

/-- The row of an instruction of two bytes. -/
theorem rowIs_two {i : Instr} {op data : Byte} {b : Bool} {n : Nat} (enc : encode i = [op, data]) (len : opLength op = 2)
    (dec : decodeOp op data 0 = i) (num : op.toNat = n) :
    RowIs i b [n, data.toNat] (machineCycles i b) (tStates i b) := by
  have decodes : decode [op, data] = .ok (i, []) := by simp only [decode, len, dec]
  exact ⟨by simp [enc, num], by rw [enc, decodes], rfl, rfl⟩

/-- The row of an instruction of three bytes: the operand is put together again from its low-order and high-order byte. -/
theorem rowIs_three {i : Instr} {op : Byte} {w : Word} {b : Bool} {n : Nat} (enc : encode i = encodeA3 op w)
    (len : opLength op = 3) (dec : ∀ b2 b3, joinBytes b3 b2 = w → decodeOp op b2 b3 = i) (num : op.toNat = n) :
    RowIs i b [n, lowPart w, highPart w] (machineCycles i b) (tStates i b) := by
  have decodes : decode (encodeA3 op w) = .ok (i, []) := by
    simp only [decode, encodeA3, len, dec _ _ (joinBytes_halves w)]
  exact ⟨by simp [enc, encodeA3, num, toNat_lowByte, toNat_highByte, lowPart, highPart], by rw [enc, decodes], rfl, rfl⟩

/-! ### The rows of the data transfer group (41_data_transfer.md) -/

theorem rowIs_movRR (dst src : Reg) (b : Bool) :
    RowIs (.movRR dst src) b [0x40 + 8 * dst.code.toNat + src.code.toNat] [.f] 4 := by
  cases dst <;> cases src <;> exact rowIs_one rfl rfl rfl rfl

theorem rowIs_movRM (dst : Reg) (b : Bool) : RowIs (.movRM dst) b [0x46 + 8 * dst.code.toNat] [.f, .r] 7 := by
  cases dst <;> exact rowIs_one rfl rfl rfl rfl

theorem rowIs_movMR (src : Reg) (b : Bool) : RowIs (.movMR src) b [0x70 + src.code.toNat] [.f, .w] 7 := by
  cases src <;> exact rowIs_one rfl rfl rfl rfl

theorem rowIs_mviR (dst : Reg) (v : Byte) (b : Bool) :
    RowIs (.mviR dst v) b [0x06 + 8 * dst.code.toNat, v.toNat] [.f, .r] 7 := by
  cases dst <;> exact rowIs_two rfl rfl rfl rfl

theorem rowIs_mviM (v : Byte) (b : Bool) : RowIs (.mviM v) b [0x36, v.toNat] [.f, .r, .w] 10 :=
  rowIs_two rfl rfl rfl rfl

theorem rowIs_lxi (rp : Pair) (data : Word) (b : Bool) :
    RowIs (.lxi rp data) b [0x01 + 16 * rp.code.toNat, lowPart data, highPart data] [.f, .r, .r] 10 := by
  cases rp <;> exact rowIs_three rfl rfl (fun _ _ h => h ▸ rfl) rfl

theorem rowIs_lda (addr : Word) (b : Bool) :
    RowIs (.lda addr) b [0x3A, lowPart addr, highPart addr] [.f, .r, .r, .r] 13 :=
  rowIs_three rfl rfl (fun _ _ h => h ▸ rfl) rfl

theorem rowIs_sta (addr : Word) (b : Bool) :
    RowIs (.sta addr) b [0x32, lowPart addr, highPart addr] [.f, .r, .r, .w] 13 :=
  rowIs_three rfl rfl (fun _ _ h => h ▸ rfl) rfl

theorem rowIs_ldax (rp : IndexPair) (b : Bool) : RowIs (.ldax rp) b [0x0A + 16 * rp.code.toNat] [.f, .r] 7 := by
  cases rp <;> exact rowIs_one rfl rfl rfl rfl

theorem rowIs_stax (rp : IndexPair) (b : Bool) : RowIs (.stax rp) b [0x02 + 16 * rp.code.toNat] [.f, .w] 7 := by
  cases rp <;> exact rowIs_one rfl rfl rfl rfl

theorem rowIs_xchg (b : Bool) : RowIs .xchg b [0xEB] [.f] 4 := rowIs_one rfl rfl rfl rfl

end Sys2Proof.Machine
end

section
/-! PROOFS. What the shared actions of the data transfer group do to a whole state: a register written, a pair written, a
byte loaded, a byte stored. -/

namespace Sys2Proof.Machine

/-! ### Each rule of the group, as one action -/

theorem exec_movRR (dst src : Reg) (s : State) : exec (.movRR dst src) s = .next (s.setReg dst (s.reg src)) := rfl

theorem exec_movRM (dst : Reg) (s : State) :
    exec (.movRM dst) s = .next ((s.noteRead s.addrM).setReg dst (s.peek s.addrM)) := rfl

theorem exec_movMR (src : Reg) (s : State) : exec (.movMR src) s = .next (s.writeByte s.addrM (s.reg src)) := rfl

theorem exec_mviR (dst : Reg) (v : Byte) (s : State) : exec (.mviR dst v) s = .next (s.setReg dst v) := rfl

theorem exec_mviM (v : Byte) (s : State) : exec (.mviM v) s = .next (s.writeByte s.addrM v) := rfl

theorem exec_lxi (rp : Pair) (data : Word) (s : State) : exec (.lxi rp data) s = .next (s.setPair rp data) := rfl

theorem exec_lda (addr : Word) (s : State) :
    exec (.lda addr) s = .next ((s.noteRead addr).setReg .a (s.peek addr)) := rfl

theorem exec_sta (addr : Word) (s : State) : exec (.sta addr) s = .next (s.writeByte addr s.regs.a) := rfl

theorem exec_ldax (rp : IndexPair) (s : State) :
    exec (.ldax rp) s =
      .next ((s.noteRead (s.pair (pairOfIndex rp))).setReg .a (s.peek (s.pair (pairOfIndex rp)))) := rfl

theorem exec_stax (rp : IndexPair) (s : State) :
    exec (.stax rp) s = .next (s.writeByte (s.pair (pairOfIndex rp)) s.regs.a) := rfl

/-! ### Frames -/

/-- A register write changes the registers only. -/
theorem State.setReg_frame (s : State) (r : Reg) (v : Byte) : s.setReg r v = { s with regs := (s.setReg r v).regs } := by
  cases r <;> rfl

/-- A register that takes the value it has changes nothing. -/
@[simp] theorem State.setReg_reg_self (s : State) (r : Reg) : s.setReg r (s.reg r) = s := by cases r <;> rfl

/-- A pair write changes the registers and SP only. -/
theorem State.setPair_frame (s : State) (p : Pair) (v : Word) :
    s.setPair p v = { s with regs := (s.setPair p v).regs, sp := (s.setPair p v).sp } := by
  cases p <;> rfl

/-- A read changes the environment's side only. -/
theorem State.noteRead_frame (s : State) (a : Word) : s.noteRead a = { s with env := (s.noteRead a).env } := by
  unfold State.noteRead State.drawIfOpen; split <;> rfl

/-- A write changes memory and the environment's side only. -/
theorem State.writeByte_frame (s : State) (a : Word) (v : Byte) :
    s.writeByte a v = { s with mem := (s.writeByte a v).mem, env := (s.writeByte a v).env } := by
  rw [State.writeByte_eq]

/-- A register loaded after a read: the register write, and what the read does to the environment's side. -/
theorem State.setReg_noteRead (s : State) (a : Word) (r : Reg) (v : Byte) :
    (s.noteRead a).setReg r v = { s.setReg r v with env := (s.noteRead a).env } := by
  rw [State.noteRead_frame]; cases r <;> rfl

/-- The number in a register pair is the address it forms. -/
theorem State.toNat_pair (s : State) (p : Pair) : (s.pair p).toNat = s.pairNat p := by
  cases p
  case sp => rfl
  all_goals exact toNat_joinBytes _ _

/-! ### The shapes of the group -/

/-- A rule that stores one byte. -/
theorem storesByte_of_exec {s : State} {a : Word} {v : Byte} {out : Outcome} (hw : s.mem.wf = true)
    (h : out = .next (s.writeByte a v)) :
    ∃ t, out = .next t ∧ t = { s with mem := t.mem, env := t.env } ∧ s.Stores t [(a, v)] ∧ s.Sees t [.memWrite a v] :=
  ⟨s.writeByte a v, h, s.writeByte_frame a v, State.stores_writeByte s _ a v hw rfl, s.sees_writeByte a v⟩

/-- A register loaded from memory: memory is left alone, and the environment sees the one read. -/
theorem State.load_accesses (s : State) (a : Word) (r : Reg) (v : Byte) :
    s.Stores ((s.noteRead a).setReg r v) [] ∧ s.Sees ((s.noteRead a).setReg r v) [.memRead a (s.peek a)] :=
  ⟨State.stores_nothing (by simp), State.sees_noteRead s _ a (by simp)⟩

/-- A rule that loads A from memory. -/
theorem loadsA_of_exec {s : State} {a : Word} {out : Outcome}
    (h : out = .next ((s.noteRead a).setReg .a (s.peek a))) :
    ∃ t v, out = .next t ∧ t = { s with regs.a := v, env := t.env } ∧ s.Stores t [] ∧ s.ReadsAs a v ∧
      s.Sees t [.memRead a v] := by
  obtain ⟨stores, sees⟩ := s.load_accesses a .a (s.peek a)
  exact ⟨_, s.peek a, h, s.setReg_noteRead a .a (s.peek a), stores, s.readsAs_peek a, sees⟩

/-- XCHG as one update: each half of one pair comes back out of the 16-bit value it was joined into. -/
theorem exec_xchg (s : State) :
    exec .xchg s =
      .next { s with regs := { s.regs with h := s.regs.d, l := s.regs.e, d := s.regs.h, e := s.regs.l } } := by
  have exchanged : (s.setPair .hl (s.pair .de)).setPair .de (s.pair .hl) =
      { s with regs := { s.regs with h := s.regs.d, l := s.regs.e, d := s.regs.h, e := s.regs.l } } := by
    simp [State.setPair, State.pair]
  exact congrArg Host.Outcome.next exchanged

end Sys2Proof.Machine
end

section
/-! PROOFS. The statements about the data transfer group (41_data_transfer.md). -/

namespace Sys2Proof.Machine

/-- Settles O1: the written register reads back, every other one keeps its value. -/
theorem moveRegisterToRegister : Obligations.MoveRegisterToRegister := by
  intro dst src b s
  refine ⟨rowIs_movRR dst src b, s.setReg dst (s.reg src), exec_movRR dst src s, s.setReg_frame dst _,
    State.stores_nothing (by simp), fun r => s.reg_setReg dst r _, ?_⟩
  rintro rfl
  exact s.setReg_reg_self dst

/-- Settles O2: the load is a read at H:L and then a register write, and the read leaves H and L alone. -/
theorem moveFromMemory : Obligations.MoveFromMemory := by
  intro dst b s
  obtain ⟨stores, sees⟩ := s.load_accesses s.addrM dst (s.peek s.addrM)
  refine ⟨rowIs_movRM dst b, s.toNat_addrM, _, s.peek s.addrM, exec_movRM dst s, ?_, stores,
    s.readsAs_peek s.addrM, sees, ?_⟩
  · rw [State.setReg_noteRead, State.setReg_frame]
  · intro r
    rw [State.reg_setReg, State.reg_noteRead]

/-- Settles O3: both rules are one store at H:L. -/
theorem moveToMemory : Obligations.MoveToMemory := by
  intro src v b s hw
  exact ⟨rowIs_movMR src b, rowIs_mviM v b, s.toNat_addrM, storesByte_of_exec hw (exec_movMR src s),
    storesByte_of_exec hw (exec_mviM v s)⟩

/-- Settles O4: a register write, and a pair write with the 16-bit operand. -/
theorem moveImmediate : Obligations.MoveImmediate := by
  intro dst v rp data b s
  refine ⟨rowIs_mviR dst v b, rowIs_lxi rp data b, ?_, ?_⟩
  · exact ⟨s.setReg dst v, exec_mviR dst v s, s.setReg_frame dst v, State.stores_nothing (by simp),
      fun r => s.reg_setReg dst r v⟩
  · exact ⟨s.setPair rp data, exec_lxi rp data s, s.setPair_frame rp data, State.stores_nothing (by simp),
      s.pairSet_setPair rp data data.toNat (by simp)⟩

/-- Settles O5: both rules load A with one read, at the operand or at the address in the pair. -/
theorem loadAccumulator : Obligations.LoadAccumulator := by
  intro addr rp b s
  exact ⟨rowIs_lda addr b, rowIs_ldax rp b, s.toNat_pair _, loadsA_of_exec (exec_lda addr s),
    loadsA_of_exec (exec_ldax rp s)⟩

/-- Settles O6: both rules are one store of A, at the operand or at the address in the pair. -/
theorem storeAccumulator : Obligations.StoreAccumulator := by
  intro addr rp b s hw
  exact ⟨rowIs_sta addr b, rowIs_stax rp b, s.toNat_pair _, storesByte_of_exec hw (exec_sta addr s),
    storesByte_of_exec hw (exec_stax rp s)⟩

/-- Settles O8: the exchange is one update of the registers, and it is its own inverse. -/
theorem exchangeDEWithHL : Obligations.ExchangeDEWithHL := by
  intro b s
  refine ⟨rowIs_xchg b, ⟨_, exec_xchg s, State.stores_nothing rfl, rfl⟩, ?_⟩
  simp only [runRules, exec_xchg]

end Sys2Proof.Machine
end

section
/-! PROOFS. The rows of ADD, ADI, ADC, ACI, INR and DAD (42_arithmetic.md). -/

namespace Sys2Proof.Machine

theorem rowIs_addR (src : Reg) (b : Bool) : RowIs (.addR src) b [0x80 + src.code.toNat] [.f] 4 := by
  cases src <;> exact rowIs_one rfl rfl rfl rfl

theorem rowIs_addM (b : Bool) : RowIs .addM b [0x86] [.f, .r] 7 := rowIs_one rfl rfl rfl rfl

theorem rowIs_adi (v : Byte) (b : Bool) : RowIs (.adi v) b [0xC6, v.toNat] [.f, .r] 7 := rowIs_two rfl rfl rfl rfl

theorem rowIs_adcR (src : Reg) (b : Bool) : RowIs (.adcR src) b [0x88 + src.code.toNat] [.f] 4 := by
  cases src <;> exact rowIs_one rfl rfl rfl rfl

theorem rowIs_adcM (b : Bool) : RowIs .adcM b [0x8E] [.f, .r] 7 := rowIs_one rfl rfl rfl rfl

theorem rowIs_aci (v : Byte) (b : Bool) : RowIs (.aci v) b [0xCE, v.toNat] [.f, .r] 7 := rowIs_two rfl rfl rfl rfl

theorem rowIs_inrR (dst : Reg) (b : Bool) : RowIs (.inrR dst) b [0x04 + 8 * dst.code.toNat] [.f] 4 := by
  cases dst <;> exact rowIs_one rfl rfl rfl rfl

theorem rowIs_inrM (b : Bool) : RowIs .inrM b [0x34] [.f, .r, .w] 10 := rowIs_one rfl rfl rfl rfl

theorem rowIs_dad (rp : Pair) (b : Bool) : RowIs (.dad rp) b [0x09 + 16 * rp.code.toNat] [.f, .b, .b] 10 := by
  cases rp <;> exact rowIs_one rfl rfl rfl rfl

end Sys2Proof.Machine
end

section
/-! PROOFS. What the shared actions of the arithmetic group do to a whole state: an ALU result taken into A, a register or M
stepped with CY kept, the double add. -/

namespace Sys2Proof.Machine

/-! ### Each rule, as one action -/

theorem exec_addR (src : Reg) (s : State) : exec (.addR src) s = .next (s.addToA (s.reg src) false) := rfl

theorem exec_addM (s : State) : exec .addM s = .next ((s.noteRead s.addrM).addToA (s.peek s.addrM) false) := rfl

theorem exec_adi (v : Byte) (s : State) : exec (.adi v) s = .next (s.addToA v false) := rfl

theorem exec_adcR (src : Reg) (s : State) : exec (.adcR src) s = .next (s.addToA (s.reg src) s.flags.cy) := rfl

theorem exec_adcM (s : State) : exec .adcM s = .next ((s.noteRead s.addrM).addToA (s.peek s.addrM) s.flags.cy) := rfl

theorem exec_aci (v : Byte) (s : State) : exec (.aci v) s = .next (s.addToA v s.flags.cy) := rfl

theorem exec_inrR (dst : Reg) (s : State) : exec (.inrR dst) s = .next (s.stepReg dst (increment (s.reg dst))) := rfl

theorem exec_inrM (s : State) : exec .inrM s = .next (s.afterReadM.stepM (increment (s.peek s.addrM))) := rfl

theorem exec_dad (rp : Pair) (s : State) :
    exec (.dad rp) s =
      .next ((s.setPair .hl ((dadSum (s.pair .hl) (s.pair rp)).extractLsb' 0 16)).setCy
        ((dadSum (s.pair .hl) (s.pair rp)).getLsbD 16)) := rfl

/-! ### An ALU result taken into A -/

/-- An ALU result taken into A changes the registers and the flags only. -/
theorem State.accumulate_frame (s : State) (out : AluOut) :
    s.accumulate out = { s with regs := (s.accumulate out).regs, flags := (s.accumulate out).flags } := rfl

/-- The same after a read: the environment's side changes as the read changes it. -/
theorem State.accumulate_noteRead_frame (s : State) (a : Word) (out : AluOut) :
    (s.noteRead a).accumulate out =
      { s with regs := ((s.noteRead a).accumulate out).regs, flags := ((s.noteRead a).accumulate out).flags
               env := (s.noteRead a).env } := by
  rw [State.noteRead_frame]; rfl

@[simp] theorem State.accumulate_mem (s : State) (out : AluOut) : (s.accumulate out).mem = s.mem := rfl

@[simp] theorem State.accumulate_env (s : State) (out : AluOut) : (s.accumulate out).env = s.env := rfl

/-- An ALU result from memory: memory is left alone, and the environment sees the one read. -/
theorem State.accumulate_accesses (s : State) (a : Word) (out : AluOut) :
    s.Stores ((s.noteRead a).accumulate out) [] ∧
      s.Sees ((s.noteRead a).accumulate out) [.memRead a (s.peek a)] :=
  ⟨State.stores_nothing (by simp), State.sees_noteRead s _ a (by simp)⟩

/-- The sum in A and its flags, from any state `u` that holds the registers of `s`, such as `s` after a read. -/
theorem State.addsIntoA_addToA {s u : State} (v : Byte) (carry : Bool) (same : u.regs = s.regs) :
    s.AddsIntoA (u.addToA v carry) v carry := by
  unfold State.AddsIntoA State.addToA
  rw [same]
  constructor
  · show { u.regs with a := (add8 s.regs.a v carry).res } = _
    rw [same, add8_res]
  · exact add8_flags ..

/-- A rule that adds a register or an immediate operand into A. -/
theorem addsOperand_of_exec {s : State} {v : Byte} {carry : Bool} {out : Outcome} (h : out = .next (s.addToA v carry)) :
    ∃ t, out = .next t ∧ t = { s with regs := t.regs, flags := t.flags } ∧ s.Stores t [] ∧ s.AddsIntoA t v carry :=
  ⟨s.addToA v carry, h, s.accumulate_frame _, State.stores_nothing rfl, State.addsIntoA_addToA v carry rfl⟩

/-- A rule that adds M into A. -/
theorem addsM_of_exec {s : State} {carry : Bool} {out : Outcome}
    (h : out = .next ((s.noteRead s.addrM).addToA (s.peek s.addrM) carry)) :
    ∃ t m, out = .next t ∧ t = { s with regs := t.regs, flags := t.flags, env := t.env } ∧ s.Stores t [] ∧
      s.ReadsAs s.addrM m ∧ s.Sees t [.memRead s.addrM m] ∧ s.AddsIntoA t m carry := by
  obtain ⟨stores, sees⟩ := s.accumulate_accesses s.addrM (add8 (s.noteRead s.addrM).regs.a (s.peek s.addrM) carry)
  exact ⟨_, s.peek s.addrM, h, s.accumulate_noteRead_frame s.addrM _, stores, s.readsAs_peek s.addrM, sees,
    State.addsIntoA_addToA (s.peek s.addrM) carry (s.noteRead_regs s.addrM)⟩

/-! ### A register or M stepped, CY kept -/

/-- The flags of INR and DCR: Z, S, P and AC are the result's, CY is the old one. -/
theorem AluOut.flagsKeepCy_spec (out : AluOut) (old : Flags) :
    (out.flagsKeepCy old).ZspOf out.res ∧ (out.flagsKeepCy old).cy = old.cy ∧ (out.flagsKeepCy old).ac = out.ac :=
  ⟨zspOf_flagsOf .., rfl, rfl⟩

theorem increment_res (v : Byte) : (increment v).res = BitVec.ofNat 8 (v.toNat + 1) := add8_res v 1 false

/-- Adding one carries out of bit 3 exactly from a low-order half of 1111. -/
theorem increment_ac (v : Byte) : (increment v).ac = true ↔ v.toNat % 16 = 15 := by
  have carries : (increment v).ac = true ↔ 16 ≤ v.toNat % 16 + 1 := add8_ac v 1 false
  rw [carries]
  omega

/-- The flags of an increment, in numbers. -/
theorem increment_flags (v : Byte) (old : Flags) :
    ((increment v).flagsKeepCy old).ZspOf (increment v).res ∧ ((increment v).flagsKeepCy old).cy = old.cy ∧
      (((increment v).flagsKeepCy old).ac = true ↔ v.toNat % 16 = 15) := by
  obtain ⟨zsp, cy, ac⟩ := (increment v).flagsKeepCy_spec old
  exact ⟨zsp, cy, ac ▸ increment_ac v⟩

/-- A stepped register changes the registers and the flags only. -/
theorem State.stepReg_frame (s : State) (r : Reg) (out : AluOut) :
    s.stepReg r out = { s with regs := (s.stepReg r out).regs, flags := (s.stepReg r out).flags } := by
  cases r <;> rfl

@[simp] theorem State.stepReg_mem (s : State) (r : Reg) (out : AluOut) : (s.stepReg r out).mem = s.mem :=
  s.setReg_mem r out.res

/-- The registers after one is stepped. -/
theorem State.reg_stepReg (s : State) (r q : Reg) (out : AluOut) :
    (s.stepReg r out).reg q = if q = r then out.res else s.reg q := s.reg_setReg r q out.res

/-- Two groups of bus events, one after the other. -/
theorem State.Sees.append {s u t : State} {early late : List BusEvent} (before : s.Sees u early)
    (after : u.Sees t late) : s.Sees t (early ++ late) := by
  unfold State.Sees at *
  rw [after, before]
  simp

/-- M read, then stepped: one write at the address of the read, and the flags. -/
theorem State.stepM_afterReadM (s : State) (out : AluOut) :
    s.afterReadM.stepM out =
      ((s.noteRead s.addrM).writeByte s.addrM out.res).setFlags (out.flagsKeepCy s.flags) := by
  simp only [State.afterReadM, State.stepM, State.addrM_noteRead, State.noteRead_flags]

/-- M stepped changes memory, the flags and the environment's side only. -/
theorem State.stepM_afterReadM_frame (s : State) (out : AluOut) :
    s.afterReadM.stepM out =
      { s with mem := (s.afterReadM.stepM out).mem, flags := (s.afterReadM.stepM out).flags
               env := (s.afterReadM.stepM out).env } := by
  rw [State.stepM_afterReadM, State.writeByte_frame, State.noteRead_frame]; rfl

/-- A write keeps its effect on memory when a read comes before it. -/
theorem State.writeByte_noteRead_mem (s : State) (a b : Word) (v : Byte) :
    ((s.noteRead a).writeByte b v).mem = (s.writeByte b v).mem := by
  simp only [State.writeByte_eq, State.kindAt_noteRead, State.noteRead_mem]

/-- M stepped: the one byte at H:L is stored, after the read of it at the same address. -/
theorem State.stepM_accesses (s : State) (out : AluOut) (hw : s.mem.wf = true) :
    s.Stores (s.afterReadM.stepM out) [(s.addrM, out.res)] ∧
      s.Sees (s.afterReadM.stepM out) [.memRead s.addrM (s.peek s.addrM), .memWrite s.addrM out.res] := by
  rw [State.stepM_afterReadM]
  constructor
  · exact State.stores_writeByte s _ s.addrM out.res hw (s.writeByte_noteRead_mem s.addrM s.addrM out.res)
  · exact (State.sees_noteRead s _ s.addrM rfl).append ((s.noteRead s.addrM).sees_writeByte s.addrM out.res)

/-- The flags after M is stepped. -/
theorem State.stepM_afterReadM_flags (s : State) (out : AluOut) :
    (s.afterReadM.stepM out).flags = out.flagsKeepCy s.flags := by
  rw [State.stepM_afterReadM]; rfl

/-! ### The double add (R171) -/

/-- The 17-bit sum loses nothing. -/
theorem toNat_dadSum (x y : Word) : (dadSum x y).toNat = x.toNat + y.toNat := by
  simp only [dadSum, BitVec.toNat_add, BitVec.toNat_setWidth]
  omega

/-- What DAD writes to H:L is the sum modulo 2^16. -/
theorem dadSum_low (x y : Word) : (dadSum x y).extractLsb' 0 16 = BitVec.ofNat 16 (x.toNat + y.toNat) := by
  apply BitVec.eq_of_toNat_eq
  simp [BitVec.extractLsb'_toNat, toNat_dadSum]

/-- What DAD writes to CY is the carry out of that sum. -/
theorem dadSum_carry (x y : Word) : (dadSum x y).getLsbD 16 = true ↔ 65536 ≤ x.toNat + y.toNat := by
  have top : (dadSum x y).getLsbD 16 = decide (65536 ≤ (dadSum x y).toNat) := BitVec.msb_eq_decide (dadSum x y)
  rw [top, decide_eq_true_iff, toNat_dadSum]

end Sys2Proof.Machine
end

section
/-! PROOFS. The statements about ADD, ADI, ADC, ACI, INR and DAD (42_arithmetic.md). -/

namespace Sys2Proof.Machine

/-- Settles O9: each form adds its operand into A, the M forms after one read. -/
theorem additions : Obligations.Additions := by
  intro r v b s
  exact ⟨⟨rowIs_addR r b, rowIs_addM b, rowIs_adi v b, rowIs_adcR r b, rowIs_adcM b, rowIs_aci v b⟩, s.toNat_addrM,
    addsOperand_of_exec (exec_addR r s), addsM_of_exec (exec_addM s), addsOperand_of_exec (exec_adi v s),
    addsOperand_of_exec (exec_adcR r s), addsM_of_exec (exec_adcM s), addsOperand_of_exec (exec_aci v s)⟩

/-- Settles O11: the register, or M after its read, takes the incremented value, and CY is the old one. -/
theorem increments : Obligations.Increments := by
  intro r b s hw
  refine ⟨rowIs_inrR r b, rowIs_inrM b, s.toNat_addrM, ?register, ?memory⟩
  case register =>
    refine ⟨_, exec_inrR r s, s.stepReg_frame r _, State.stores_nothing (by simp), fun q => ?_, ?_⟩
    · rw [State.reg_stepReg, increment_res]
    · rw [State.reg_stepReg, if_pos rfl]
      exact increment_flags (s.reg r) s.flags
  case memory =>
    obtain ⟨stores, sees⟩ := s.stepM_accesses (increment (s.peek s.addrM)) hw
    refine ⟨_, s.peek s.addrM, _, exec_inrM s, s.stepM_afterReadM_frame _, s.readsAs_peek s.addrM,
      increment_res (s.peek s.addrM), stores, sees, ?_⟩
    rw [State.stepM_afterReadM_flags]
    exact increment_flags (s.peek s.addrM) s.flags

/-- Settles O14: H:L and CY are the low 16 bits and the top bit of a sum that loses nothing. -/
theorem doubleAdd : Obligations.DoubleAdd := by
  intro rp b s
  refine ⟨rowIs_dad rp b, _, exec_dad rp s, rfl, State.stores_nothing rfl, ?_, ?_⟩
  · apply State.pairSet_setPair s .hl
    rw [dadSum_low, State.toNat_pair, State.toNat_pair]
  · rw [State.setCy_flags_cy, dadSum_carry, State.toNat_pair, State.toNat_pair]

end Sys2Proof.Machine
end

section
/-! PROOFS. The rows of ANA, ANI, XRA, XRI, ORA, ORI, the rotates, CMA, CMC and STC (43_logical.md). -/

namespace Sys2Proof.Machine

theorem rowIs_anaR (src : Reg) (b : Bool) : RowIs (.anaR src) b [0xA0 + src.code.toNat] [.f] 4 := by
  cases src <;> exact rowIs_one rfl rfl rfl rfl

theorem rowIs_anaM (b : Bool) : RowIs .anaM b [0xA6] [.f, .r] 7 := rowIs_one rfl rfl rfl rfl

theorem rowIs_ani (v : Byte) (b : Bool) : RowIs (.ani v) b [0xE6, v.toNat] [.f, .r] 7 := rowIs_two rfl rfl rfl rfl

theorem rowIs_xraR (src : Reg) (b : Bool) : RowIs (.xraR src) b [0xA8 + src.code.toNat] [.f] 4 := by
  cases src <;> exact rowIs_one rfl rfl rfl rfl

theorem rowIs_xraM (b : Bool) : RowIs .xraM b [0xAE] [.f, .r] 7 := rowIs_one rfl rfl rfl rfl

theorem rowIs_xri (v : Byte) (b : Bool) : RowIs (.xri v) b [0xEE, v.toNat] [.f, .r] 7 := rowIs_two rfl rfl rfl rfl

theorem rowIs_oraR (src : Reg) (b : Bool) : RowIs (.oraR src) b [0xB0 + src.code.toNat] [.f] 4 := by
  cases src <;> exact rowIs_one rfl rfl rfl rfl

theorem rowIs_oraM (b : Bool) : RowIs .oraM b [0xB6] [.f, .r] 7 := rowIs_one rfl rfl rfl rfl

theorem rowIs_ori (v : Byte) (b : Bool) : RowIs (.ori v) b [0xF6, v.toNat] [.f, .r] 7 := rowIs_two rfl rfl rfl rfl

theorem rowIs_rlc (b : Bool) : RowIs .rlc b [0x07] [.f] 4 := rowIs_one rfl rfl rfl rfl

theorem rowIs_rrc (b : Bool) : RowIs .rrc b [0x0F] [.f] 4 := rowIs_one rfl rfl rfl rfl

theorem rowIs_ral (b : Bool) : RowIs .ral b [0x17] [.f] 4 := rowIs_one rfl rfl rfl rfl

theorem rowIs_rar (b : Bool) : RowIs .rar b [0x1F] [.f] 4 := rowIs_one rfl rfl rfl rfl

theorem rowIs_cma (b : Bool) : RowIs .cma b [0x2F] [.f] 4 := rowIs_one rfl rfl rfl rfl

theorem rowIs_cmc (b : Bool) : RowIs .cmc b [0x3F] [.f] 4 := rowIs_one rfl rfl rfl rfl

theorem rowIs_stc (b : Bool) : RowIs .stc b [0x37] [.f] 4 := rowIs_one rfl rfl rfl rfl

end Sys2Proof.Machine
end

section
/-! PROOFS. AND, exclusive OR and OR take a result into A as the arithmetic does, with CY 0 (43_logical.md R181 to R189). -/

namespace Sys2Proof.Machine

/-! ### Each rule, as one ALU result taken into A -/

theorem exec_anaR (src : Reg) (s : State) :
    exec (.anaR src) s = .next (s.accumulate ⟨s.regs.a &&& s.reg src, false, true⟩) := rfl

theorem exec_ani (v : Byte) (s : State) : exec (.ani v) s = .next (s.accumulate ⟨s.regs.a &&& v, false, true⟩) := rfl

theorem exec_xraR (src : Reg) (s : State) :
    exec (.xraR src) s = .next (s.accumulate ⟨s.regs.a ^^^ s.reg src, false, false⟩) := rfl

theorem exec_xri (v : Byte) (s : State) : exec (.xri v) s = .next (s.accumulate ⟨s.regs.a ^^^ v, false, false⟩) := rfl

theorem exec_oraR (src : Reg) (s : State) :
    exec (.oraR src) s = .next (s.accumulate ⟨s.regs.a ||| s.reg src, false, false⟩) := rfl

theorem exec_ori (v : Byte) (s : State) : exec (.ori v) s = .next (s.accumulate ⟨s.regs.a ||| v, false, false⟩) := rfl

theorem exec_anaM (s : State) :
    exec .anaM s = .next ((s.noteRead s.addrM).accumulate ⟨s.regs.a &&& s.peek s.addrM, false, true⟩) := by
  rw [← s.noteRead_regs s.addrM]; rfl

theorem exec_xraM (s : State) :
    exec .xraM s = .next ((s.noteRead s.addrM).accumulate ⟨s.regs.a ^^^ s.peek s.addrM, false, false⟩) := by
  rw [← s.noteRead_regs s.addrM]; rfl

theorem exec_oraM (s : State) :
    exec .oraM s = .next ((s.noteRead s.addrM).accumulate ⟨s.regs.a ||| s.peek s.addrM, false, false⟩) := by
  rw [← s.noteRead_regs s.addrM]; rfl

/-! ### The shapes of the group -/

section
variable {s u : State} {v res : Byte} {op : Bool → Bool → Bool} {ac : Bool} {out : Outcome}

/-- A bitwise result in A and its flags, from any state `u` that holds the registers of `s`, such as `s` after a read. -/
theorem State.combinesIntoA_accumulate (same : u.regs = s.regs)
    (bits : ∀ n < 8, res.getLsbD n = op (s.regs.a.getLsbD n) (v.getLsbD n)) :
    s.CombinesIntoA (u.accumulate ⟨res, false, ac⟩) v op ac := by
  refine ⟨?_, bits, zspOf_flagsOf .., rfl, rfl⟩
  show { u.regs with a := res } = { s.regs with a := res }
  rw [same]

/-- A rule that combines a register or an immediate operand into A. -/
theorem combinesOperand_of_exec (h : out = .next (s.accumulate ⟨res, false, ac⟩))
    (bits : ∀ n < 8, res.getLsbD n = op (s.regs.a.getLsbD n) (v.getLsbD n)) :
    ∃ t, out = .next t ∧ t = { s with regs := t.regs, flags := t.flags } ∧ s.Stores t [] ∧ s.CombinesIntoA t v op ac :=
  ⟨_, h, s.accumulate_frame _, State.stores_nothing rfl, State.combinesIntoA_accumulate rfl bits⟩

/-- A rule that combines M into A. -/
theorem combinesM_of_exec (h : out = .next ((s.noteRead s.addrM).accumulate ⟨res, false, ac⟩))
    (bits : ∀ n < 8, res.getLsbD n = op (s.regs.a.getLsbD n) ((s.peek s.addrM).getLsbD n)) :
    ∃ t m, out = .next t ∧ t = { s with regs := t.regs, flags := t.flags, env := t.env } ∧ s.Stores t [] ∧
      s.ReadsAs s.addrM m ∧ s.Sees t [.memRead s.addrM m] ∧ s.CombinesIntoA t m op ac := by
  obtain ⟨stores, sees⟩ := s.accumulate_accesses s.addrM ⟨res, false, ac⟩
  exact ⟨_, s.peek s.addrM, h, s.accumulate_noteRead_frame s.addrM _, stores, s.readsAs_peek s.addrM, sees,
    State.combinesIntoA_accumulate (s.noteRead_regs s.addrM) bits⟩

end

end Sys2Proof.Machine
end

section
/-! PROOFS. The rotates (43_logical.md R193 to R196): the bits of one rotate, and what as many rotates as the ring has bits
restore. RLC and RRC turn the ring of A's eight bits, RAL and RAR the ring of nine bits that CY closes. -/

namespace Sys2Proof.Machine

/-! ### Each rule, as one action -/

theorem exec_rlc (s : State) : exec .rlc s = .next (s.rotateA (rotateLeft s.regs.a)) := rfl

theorem exec_rrc (s : State) : exec .rrc s = .next (s.rotateA (rotateRight s.regs.a)) := rfl

theorem exec_ral (s : State) : exec .ral s = .next (s.rotateA (rotateLeftThroughCarry s.regs.a s.flags.cy)) := rfl

theorem exec_rar (s : State) : exec .rar s = .next (s.rotateA (rotateRightThroughCarry s.regs.a s.flags.cy)) := rfl

/-- A rotate changes A and CY only. -/
theorem State.rotateA_frame (s : State) (r : Rotated) :
    s.rotateA r = { s with regs.a := (s.rotateA r).regs.a, flags.cy := (s.rotateA r).flags.cy } := rfl

/-! ### The bits of one rotate -/

theorem rotateLeftThroughCarry_getLsbD (acc : Byte) (cy : Bool) (n : Nat) :
    (rotateLeftThroughCarry acc cy).acc.getLsbD n =
      if n < 1 then (BitVec.ofBool cy).getLsbD n else (acc.extractLsb' 0 7).getLsbD (n - 1) :=
  BitVec.getLsbD_append

theorem rotateRightThroughCarry_getLsbD (acc : Byte) (cy : Bool) (n : Nat) :
    (rotateRightThroughCarry acc cy).acc.getLsbD n =
      if n < 7 then (acc.extractLsb' 1 7).getLsbD n else (BitVec.ofBool cy).getLsbD (n - 7) :=
  BitVec.getLsbD_append

/-- One place to the left: bit 0 takes the old CY, CY takes bit 7. -/
theorem rotateLeftThroughCarry_bits (acc : Byte) (cy : Bool) :
    (∀ n < 7, (rotateLeftThroughCarry acc cy).acc.getLsbD (n + 1) = acc.getLsbD n) ∧
      (rotateLeftThroughCarry acc cy).acc.getLsbD 0 = cy ∧ (rotateLeftThroughCarry acc cy).cy = acc.getLsbD 7 := by
  refine ⟨fun n hn => ?_, ?_, rfl⟩
  · simp [rotateLeftThroughCarry_getLsbD, hn]
  · rw [rotateLeftThroughCarry_getLsbD]; simp

/-- One place to the right: bit 7 takes the old CY, CY takes bit 0. -/
theorem rotateRightThroughCarry_bits (acc : Byte) (cy : Bool) :
    (∀ n < 7, (rotateRightThroughCarry acc cy).acc.getLsbD n = acc.getLsbD (n + 1)) ∧
      (rotateRightThroughCarry acc cy).acc.getLsbD 7 = cy ∧ (rotateRightThroughCarry acc cy).cy = acc.getLsbD 0 := by
  refine ⟨fun n hn => ?_, ?_, rfl⟩
  · simp [rotateRightThroughCarry_getLsbD, hn, Nat.add_comm]
  · rw [rotateRightThroughCarry_getLsbD]; simp

/-- A field of one bit is that bit. -/
theorem extractLsb'_one (acc : Byte) (n : Nat) : acc.extractLsb' n 1 = BitVec.ofBool (acc.getLsbD n) := by
  apply BitVec.eq_of_getLsbD_eq
  rintro (_ | k) hk
  · simp
  · omega

/-- RLC is RAL with bit 7 in the place of the old CY. -/
theorem rotateLeft_eq_throughCarry (acc : Byte) : rotateLeft acc = rotateLeftThroughCarry acc (acc.getLsbD 7) := by
  rw [rotateLeft, rotateLeftThroughCarry, extractLsb'_one]

/-- RRC is RAR with bit 0 in the place of the old CY. -/
theorem rotateRight_eq_throughCarry (acc : Byte) : rotateRight acc = rotateRightThroughCarry acc (acc.getLsbD 0) := by
  rw [rotateRight, rotateRightThroughCarry, extractLsb'_one]

/-! ### The two rings -/

/-- What the rotates read of a state: A and CY. -/
def State.rotated (s : State) : Rotated := ⟨s.regs.a, s.flags.cy⟩

/-- The ring of RLC and RRC: the eight bits of A. -/
def Rotated.accBit (r : Rotated) (i : Fin 8) : Bool := r.acc.getLsbD i

/-- The ring of RAL and RAR: the eight bits of A, then CY. -/
def Rotated.ringBit (r : Rotated) : Fin 9 → Bool := Fin.snoc (α := fun _ => Bool) r.accBit r.cy

@[simp] theorem Rotated.ringBit_castSucc (r : Rotated) (i : Fin 8) : r.ringBit i.castSucc = r.accBit i :=
  Fin.snoc_castSucc (α := fun _ => Bool) ..

@[simp] theorem Rotated.ringBit_last (r : Rotated) : r.ringBit (Fin.last 8) = r.cy :=
  Fin.snoc_last (α := fun _ => Bool) ..

theorem Rotated.acc_eq_of_accBit {q r : Rotated} (h : q.accBit = r.accBit) : q.acc = r.acc :=
  BitVec.eq_of_getLsbD_eq fun n hn => congrFun h ⟨n, hn⟩

theorem Rotated.eq_of_ringBit {q r : Rotated} (h : q.ringBit = r.ringBit) : q = r := by
  have acc : q.acc = r.acc := Rotated.acc_eq_of_accBit <| funext fun i => by
    simpa only [Rotated.ringBit_castSucc] using congrFun h i.castSucc
  have cy : q.cy = r.cy := by simpa only [Rotated.ringBit_last] using congrFun h (Fin.last 8)
  show Rotated.mk q.acc q.cy = ⟨r.acc, r.cy⟩
  rw [acc, cy]

/-- RLC moves each bit of A to the next place, bit 7 to bit 0. -/
theorem accBit_rotateLeft (r : Rotated) (i : Fin 8) : (rotateLeft r.acc).accBit (i + 1) = r.accBit i := by
  obtain ⟨moved, free, -⟩ := rotateLeftThroughCarry_bits r.acc (r.acc.getLsbD 7)
  rw [rotateLeft_eq_throughCarry]
  induction i using Fin.lastCases with
  | last => rw [Fin.last_add_one]; exact free
  | cast n => rw [Fin.coeSucc_eq_succ]; exact moved n n.isLt

/-- RRC moves each bit of A to the place before, bit 0 to bit 7. -/
theorem accBit_rotateRight (r : Rotated) (i : Fin 8) : (rotateRight r.acc).accBit i = r.accBit (i + 1) := by
  obtain ⟨moved, free, -⟩ := rotateRightThroughCarry_bits r.acc (r.acc.getLsbD 0)
  rw [rotateRight_eq_throughCarry]
  induction i using Fin.lastCases with
  | last => rw [Fin.last_add_one]; exact free
  | cast n => rw [Fin.coeSucc_eq_succ]; exact moved n n.isLt

/-- RAL moves each bit of the ring to the next place: bit 7 to CY, CY to bit 0. -/
theorem ringBit_rotateLeftThroughCarry (r : Rotated) (i : Fin 9) :
    (rotateLeftThroughCarry r.acc r.cy).ringBit (i + 1) = r.ringBit i := by
  obtain ⟨moved, free, carry⟩ := rotateLeftThroughCarry_bits r.acc r.cy
  induction i using Fin.lastCases with
  | last => rw [Fin.last_add_one, Rotated.ringBit_last]; exact free
  | cast j =>
    rw [Fin.coeSucc_eq_succ, Rotated.ringBit_castSucc]
    induction j using Fin.lastCases with
    | last => rw [Fin.succ_last, Rotated.ringBit_last]; exact carry
    | cast n => rw [Fin.succ_castSucc, Rotated.ringBit_castSucc]; exact moved n n.isLt

/-- RAR moves each bit of the ring to the place before: CY to bit 7, bit 0 to CY. -/
theorem ringBit_rotateRightThroughCarry (r : Rotated) (i : Fin 9) :
    (rotateRightThroughCarry r.acc r.cy).ringBit i = r.ringBit (i + 1) := by
  obtain ⟨moved, free, carry⟩ := rotateRightThroughCarry_bits r.acc r.cy
  induction i using Fin.lastCases with
  | last => rw [Fin.last_add_one, Rotated.ringBit_last]; exact carry
  | cast j =>
    rw [Fin.coeSucc_eq_succ, Rotated.ringBit_castSucc]
    induction j using Fin.lastCases with
    | last => rw [Fin.succ_last, Rotated.ringBit_last]; exact free
    | cast n => rw [Fin.succ_castSucc, Rotated.ringBit_castSucc]; exact moved n n.isLt

/-! ### A full turn -/

section
variable {α : Type} {m : Nat} [NeZero m] {bit : α → Fin m → Bool} {f : α → α} {d : Fin m}

/-- `k` turns of a ring by `d` places are one turn by `k • d` places. -/
theorem bit_iterate_of_turn (turns : ∀ x i, bit (f x) i = bit x (i + d)) (k : Nat) (x : α) (i : Fin m) :
    bit (f^[k] x) i = bit x (i + k • d) := by
  induction k generalizing x with
  | zero => simp
  | succ k ih => rw [Function.iterate_succ_apply, ih, turns, succ_nsmul, add_assoc]

/-- As many turns as the ring has bits bring every bit back to its place. -/
theorem bit_full_turn (turns : ∀ x i, bit (f x) i = bit x (i + d)) (x : α) : bit (f^[m] x) = bit x := by
  have whole : m • d = 0 := by simpa using card_nsmul_eq_zero (x := d)
  funext i
  rw [bit_iterate_of_turn turns, whole, add_zero]

/-- The same for a ring turned the other way, each bit to the next place. -/
theorem bit_full_turn_left (turns : ∀ x i, bit (f x) (i + 1) = bit x i) (x : α) : bit (f^[m] x) = bit x :=
  bit_full_turn (d := -1) (fun x i => by rw [← turns x, neg_add_cancel_right]) x

end

/-- A rotate run `n` times is one rotate with its function on A and CY iterated: a later rotate overwrites A and CY and reads
nothing else. -/
theorem runRules_replicate_rotate {i : Instr} {f : Rotated → Rotated}
    (rule : ∀ s, exec i s = .next (s.rotateA (f s.rotated))) (n : Nat) (s : State) :
    runRules (List.replicate n i) s = .next (s.rotateA (f^[n] s.rotated)) := by
  induction n generalizing s with
  | zero => rfl
  | succ n ih =>
    rw [List.replicate_succ, runRules, rule]
    exact ih _

/-- Eight RLC restore A. -/
theorem runRules_eight_rlc (s : State) : ∃ t, runRules (List.replicate 8 .rlc) s = .next t ∧ t.regs.a = s.regs.a :=
  ⟨_, runRules_replicate_rotate (f := fun r => rotateLeft r.acc) exec_rlc 8 s,
    Rotated.acc_eq_of_accBit (bit_full_turn_left accBit_rotateLeft s.rotated)⟩

/-- Eight RRC restore A. -/
theorem runRules_eight_rrc (s : State) : ∃ t, runRules (List.replicate 8 .rrc) s = .next t ∧ t.regs.a = s.regs.a :=
  ⟨_, runRules_replicate_rotate (f := fun r => rotateRight r.acc) exec_rrc 8 s,
    Rotated.acc_eq_of_accBit (bit_full_turn accBit_rotateRight s.rotated)⟩

/-- Nine RAL restore the state. -/
theorem runRules_nine_ral (s : State) : runRules (List.replicate 9 .ral) s = .next s := by
  rw [runRules_replicate_rotate (f := fun r => rotateLeftThroughCarry r.acc r.cy) exec_ral,
    Rotated.eq_of_ringBit (bit_full_turn_left ringBit_rotateLeftThroughCarry s.rotated)]
  rfl

/-- Nine RAR restore the state. -/
theorem runRules_nine_rar (s : State) : runRules (List.replicate 9 .rar) s = .next s := by
  rw [runRules_replicate_rotate (f := fun r => rotateRightThroughCarry r.acc r.cy) exec_rar,
    Rotated.eq_of_ringBit (bit_full_turn ringBit_rotateRightThroughCarry s.rotated)]
  rfl

end Sys2Proof.Machine
end

section
/-! PROOFS. CMA, CMC and STC, each as one action (43_logical.md R197 to R199). -/

namespace Sys2Proof.Machine

theorem exec_cma (s : State) : exec .cma s = .next (s.setReg .a (~~~s.regs.a)) := rfl

/-- Complementing A twice changes nothing. -/
theorem State.complement_twice (s : State) :
    (s.setReg .a (~~~s.regs.a)).setReg .a (~~~(s.setReg .a (~~~s.regs.a)).regs.a) = s := by
  show s.setReg .a (~~~ ~~~s.regs.a) = s
  rw [BitVec.not_not]
  exact s.setReg_reg_self .a

theorem exec_cmc (s : State) : exec .cmc s = .next (s.setCy (!s.flags.cy)) := rfl

theorem exec_stc (s : State) : exec .stc s = .next (s.setCy true) := rfl

end Sys2Proof.Machine
end

section
/-! PROOFS. The statements about the logical group (43_logical.md). -/

namespace Sys2Proof.Machine

/-- Settles O17: each form takes a bitwise result into A, the M forms after one read. -/
theorem logicalOperations : Obligations.LogicalOperations := by
  intro r v b s
  refine ⟨⟨rowIs_anaR r b, rowIs_anaM b, rowIs_ani v b, rowIs_xraR r b, rowIs_xraM b, rowIs_xri v b, rowIs_oraR r b,
    rowIs_oraM b, rowIs_ori v b⟩, s.toNat_addrM, ?operand, ?memory⟩
  case operand =>
    simp only [List.forall_mem_cons]
    exact ⟨combinesOperand_of_exec (exec_anaR r s) fun _ _ => BitVec.getLsbD_and,
      combinesOperand_of_exec (exec_ani v s) fun _ _ => BitVec.getLsbD_and,
      combinesOperand_of_exec (exec_xraR r s) fun _ _ => BitVec.getLsbD_xor,
      combinesOperand_of_exec (exec_xri v s) fun _ _ => BitVec.getLsbD_xor,
      combinesOperand_of_exec (exec_oraR r s) fun _ _ => BitVec.getLsbD_or,
      combinesOperand_of_exec (exec_ori v s) fun _ _ => BitVec.getLsbD_or, List.forall_mem_nil _⟩
  case memory =>
    simp only [List.forall_mem_cons]
    exact ⟨combinesM_of_exec (exec_anaM s) fun _ _ => BitVec.getLsbD_and,
      combinesM_of_exec (exec_xraM s) fun _ _ => BitVec.getLsbD_xor,
      combinesM_of_exec (exec_oraM s) fun _ _ => BitVec.getLsbD_or, List.forall_mem_nil _⟩

/-- Settles O19: one rotate bit by bit, then a full turn of the ring of eight or nine bits. -/
theorem rotates : Obligations.Rotates := by
  intro b s
  refine ⟨⟨rowIs_rlc b, rowIs_rrc b, rowIs_ral b, rowIs_rar b⟩, ?rlc, ?rrc, ?ral, ?rar, runRules_eight_rlc s,
    runRules_eight_rrc s, runRules_nine_ral s, runRules_nine_rar s⟩
  case rlc =>
    refine ⟨_, exec_rlc s, s.rotateA_frame _, State.stores_nothing rfl, ?_⟩
    rw [rotateLeft_eq_throughCarry]
    exact rotateLeftThroughCarry_bits s.regs.a _
  case rrc =>
    refine ⟨_, exec_rrc s, s.rotateA_frame _, State.stores_nothing rfl, ?_⟩
    rw [rotateRight_eq_throughCarry]
    exact rotateRightThroughCarry_bits s.regs.a _
  case ral =>
    exact ⟨_, exec_ral s, s.rotateA_frame _, State.stores_nothing rfl, rotateLeftThroughCarry_bits s.regs.a s.flags.cy⟩
  case rar =>
    exact ⟨_, exec_rar s, s.rotateA_frame _, State.stores_nothing rfl, rotateRightThroughCarry_bits s.regs.a s.flags.cy⟩

/-- Settles O20: each rule is one update of A or of CY, and the complement is its own inverse. -/
theorem complementAndCarry : Obligations.ComplementAndCarry := by
  intro b s
  refine ⟨⟨rowIs_cma b, rowIs_cmc b, rowIs_stc b⟩, ?cma, ⟨_, exec_cmc s, rfl, State.stores_nothing rfl⟩,
    ⟨_, exec_stc s, rfl, State.stores_nothing rfl⟩, ?twice⟩
  case cma =>
    refine ⟨_, exec_cma s, rfl, State.stores_nothing rfl, fun n hn => ?_⟩
    rw [State.setReg_a_regs_a, BitVec.getLsbD_not, decide_eq_true hn, Bool.true_and]
  case twice =>
    simp only [runRules, exec_cma, State.complement_twice]

end Sys2Proof.Machine
end

section
/-! PROOFS. The conditional jumps, calls and returns by their condition (44_branch.md R210): the condition's code CCC, the
three instructions that carry it, and the flag it tests. -/

namespace Sys2Proof

/-- The 3-bit condition code CCC (R210). -/
def Cond.code : Cond → BitVec 3
  | .nz => 0b000
  | .z => 0b001
  | .nc => 0b010
  | .c => 0b011
  | .po => 0b100
  | .pe => 0b101
  | .p => 0b110
  | .m => 0b111

/-- The jump on a condition (R240). -/
def Cond.jump (cond : Cond) (addr : Word) : Instr :=
  match cond with
  | .nz => .jnz addr
  | .z => .jz addr
  | .nc => .jnc addr
  | .c => .jc addr
  | .po => .jpo addr
  | .pe => .jpe addr
  | .p => .jp addr
  | .m => .jm addr

/-- The call on a condition (R241). -/
def Cond.call (cond : Cond) (addr : Word) : Instr :=
  match cond with
  | .nz => .cnz addr
  | .z => .cz addr
  | .nc => .cnc addr
  | .c => .cc addr
  | .po => .cpo addr
  | .pe => .cpe addr
  | .p => .cp addr
  | .m => .cm addr

/-- The return on a condition (R242). -/
def Cond.ret : Cond → Instr
  | .nz => .rnz
  | .z => .rz
  | .nc => .rnc
  | .c => .rc
  | .po => .rpo
  | .pe => .rpe
  | .p => .rp
  | .m => .rm

/-! ### The decoder finds them at their code -/

/-- Every 3-bit code is some condition's. -/
theorem Cond.exists_code_eq {ccc : Nat} (h : ccc < 8) : ∃ cond : Cond, cond.code.toNat = ccc := by
  interval_cases ccc
  exacts [⟨.nz, rfl⟩, ⟨.z, rfl⟩, ⟨.nc, rfl⟩, ⟨.c, rfl⟩, ⟨.po, rfl⟩, ⟨.pe, rfl⟩, ⟨.p, rfl⟩, ⟨.m, rfl⟩]

theorem Cond.decodeOp_jump (cond : Cond) (b2 b3 : Byte) :
    decodeOp (BitVec.ofNat 8 (0xC2 + 8 * cond.code.toNat)) b2 b3 = cond.jump (joinBytes b3 b2) := by cases cond <;> rfl

theorem Cond.decodeOp_call (cond : Cond) (b2 b3 : Byte) :
    decodeOp (BitVec.ofNat 8 (0xC4 + 8 * cond.code.toNat)) b2 b3 = cond.call (joinBytes b3 b2) := by cases cond <;> rfl

theorem Cond.decodeOp_ret (cond : Cond) (b2 b3 : Byte) :
    decodeOp (BitVec.ofNat 8 (0xC0 + 8 * cond.code.toNat)) b2 b3 = cond.ret := by cases cond <;> rfl

end Sys2Proof

namespace Sys2Proof.Machine

/-! ### The condition they share -/

theorem branchCond_condJump (cond : Cond) (addr : Word) : branchCond (cond.jump addr) = some cond := by cases cond <;> rfl

theorem branchCond_condCall (cond : Cond) (addr : Word) : branchCond (cond.call addr) = some cond := by cases cond <;> rfl

theorem branchCond_condRet (cond : Cond) : branchCond cond.ret = some cond := by cases cond <;> rfl

/-- Bits 2:1 of the code choose the flag, bit 0 is the value it must have. -/
theorem Flags.holds_iff_chosenBy (f : Flags) (cond : Cond) :
    f.holds cond = true ↔ (f.chosenBy cond.code.toNat = true ↔ cond.code.toNat % 2 = 1) := by
  cases cond <;> simp [Flags.holds, Flags.chosenBy, Cond.code]

/-- No condition tests AC. -/
theorem Flags.holds_set_ac (f : Flags) (bit : Bool) (cond : Cond) : { f with ac := bit }.holds cond = f.holds cond := by
  cases cond <;> rfl

end Sys2Proof.Machine
end

section
/-! PROOFS. The rules of the branch group (44_branch.md), each as one action of the state, and of SPHL, which moves H:L as PCHL
does. -/

namespace Sys2Proof.Machine

theorem exec_jmp (addr : Word) (s : State) : exec (.jmp addr) s = .next (s.setPc addr) := rfl

theorem exec_condJump (cond : Cond) (addr : Word) (s : State) : exec (cond.jump addr) s = .next (s.jumpIf cond addr) := by
  cases cond <;> rfl

theorem exec_call (addr : Word) (s : State) : exec (.call addr) s = .next (s.callTo addr) := rfl

theorem exec_condCall (cond : Cond) (addr : Word) (s : State) : exec (cond.call addr) s = .next (s.callIf cond addr) := by
  cases cond <;> rfl

theorem exec_ret (s : State) : exec .ret s = .next s.return16 := rfl

theorem exec_condRet (cond : Cond) (s : State) : exec cond.ret s = .next (s.returnIf cond) := by cases cond <;> rfl

theorem exec_rst (n : Nat) (s : State) : exec (.rst n) s = .next (s.restart (BitVec.ofNat 3 n)) := rfl

theorem exec_pchl (s : State) : exec .pchl s = .next (s.setPc (s.pair .hl)) := rfl

theorem exec_sphl (s : State) : exec .sphl s = .next (s.setSp (s.pair .hl)) := rfl

/-! ### What a conditional action does -/

/-- A conditional jump writes pc at most. -/
theorem State.jumpIf_eq (s : State) (cond : Cond) (addr : Word) :
    s.jumpIf cond addr = { s with pc := if s.flags.holds cond then addr else s.pc } := by
  unfold State.jumpIf; split <;> rfl

@[simp] theorem State.jumpIf_flags (s : State) (cond : Cond) (addr : Word) : (s.jumpIf cond addr).flags = s.flags := by
  rw [State.jumpIf_eq]

@[simp] theorem State.callIf_flags (s : State) (cond : Cond) (addr : Word) : (s.callIf cond addr).flags = s.flags := by
  unfold State.callIf; split <;> simp

@[simp] theorem State.returnIf_flags (s : State) (cond : Cond) : (s.returnIf cond).flags = s.flags := by
  unfold State.returnIf; split <;> simp

/-! ### The group has eight kinds of instruction -/

/-- The branch instructions, the conditional ones by their condition. -/
inductive BranchKind : Instr → Prop where
  | jmp (addr : Word) : BranchKind (.jmp addr)
  | condJump (cond : Cond) (addr : Word) : BranchKind (cond.jump addr)
  | call (addr : Word) : BranchKind (.call addr)
  | condCall (cond : Cond) (addr : Word) : BranchKind (cond.call addr)
  | ret : BranchKind .ret
  | condRet (cond : Cond) : BranchKind cond.ret
  | rst (n : Nat) : BranchKind (.rst n)
  | pchl : BranchKind .pchl

/-- Every instruction of the group is of one of the eight kinds; its mnemonic names the condition. -/
theorem branchKind_of_inBranchGroup {i : Instr} (h : inBranchGroup i = true) : BranchKind i := by
  cases i with
  | jmp addr => exact .jmp addr
  | jnz addr => exact .condJump .nz addr
  | jz addr => exact .condJump .z addr
  | jnc addr => exact .condJump .nc addr
  | jc addr => exact .condJump .c addr
  | jpo addr => exact .condJump .po addr
  | jpe addr => exact .condJump .pe addr
  | jp addr => exact .condJump .p addr
  | jm addr => exact .condJump .m addr
  | call addr => exact .call addr
  | cnz addr => exact .condCall .nz addr
  | cz addr => exact .condCall .z addr
  | cnc addr => exact .condCall .nc addr
  | cc addr => exact .condCall .c addr
  | cpo addr => exact .condCall .po addr
  | cpe addr => exact .condCall .pe addr
  | cp addr => exact .condCall .p addr
  | cm addr => exact .condCall .m addr
  | ret => exact .ret
  | rnz => exact .condRet .nz
  | rz => exact .condRet .z
  | rnc => exact .condRet .nc
  | rc => exact .condRet .c
  | rpo => exact .condRet .po
  | rpe => exact .condRet .pe
  | rp => exact .condRet .p
  | rm => exact .condRet .m
  | rst n => exact .rst n
  | pchl => exact .pchl
  | _ => exact (Bool.false_ne_true h).elim

/-- A branch instruction completes from every state, and leaves the flags as they are. -/
theorem exec_branch {i : Instr} (h : inBranchGroup i = true) (s : State) :
    ∃ t, exec i s = .next t ∧ t.flags = s.flags := by
  cases branchKind_of_inBranchGroup h with
  | jmp addr => exact ⟨_, exec_jmp addr s, s.setPc_flags addr⟩
  | condJump cond addr => exact ⟨_, exec_condJump cond addr s, s.jumpIf_flags cond addr⟩
  | call addr => exact ⟨_, exec_call addr s, s.callTo_flags addr⟩
  | condCall cond addr => exact ⟨_, exec_condCall cond addr s, s.callIf_flags cond addr⟩
  | ret => exact ⟨_, exec_ret s, s.return16_flags⟩
  | condRet cond => exact ⟨_, exec_condRet cond s, s.returnIf_flags cond⟩
  | rst n => exact ⟨_, exec_rst n s, s.callTo_flags _⟩
  | pchl => exact ⟨_, exec_pchl s, s.setPc_flags _⟩

end Sys2Proof.Machine
end

section
/-! PROOFS. The rows of JMP, the conditional jumps, PCHL and SPHL (44_branch.md, 45_stack_io_control.md). -/

namespace Sys2Proof.Machine

theorem rowIs_jmp (addr : Word) (b : Bool) : RowIs (.jmp addr) b [0xC3, lowPart addr, highPart addr] [.f, .r, .r] 10 :=
  rowIs_three rfl rfl (fun _ _ h => h ▸ rfl) rfl

theorem rowIs_pchl (b : Bool) : RowIs .pchl b [0xE9] [.s] 6 := rowIs_one rfl rfl rfl rfl

theorem rowIs_sphl (b : Bool) : RowIs .sphl b [0xF9] [.s] 6 := rowIs_one rfl rfl rfl rfl

/-- A conditional jump reads byte 3, in a third machine cycle, only when it is taken. -/
theorem rowIs_condJump (cond : Cond) (addr : Word) (taken : Bool) :
    RowIs (cond.jump addr) taken [0xC2 + 8 * cond.code.toNat, lowPart addr, highPart addr]
      (if taken then [.f, .r, .r] else [.f, .r]) (if taken then 10 else 7) := by
  cases cond <;> exact rowIs_three rfl rfl (fun _ _ h => h ▸ rfl) rfl

end Sys2Proof.Machine
end

section
/-! PROOFS. The statements about the branch group (44_branch.md). -/

namespace Sys2Proof.Machine

/-- Settles O26: the three instructions at a code carry the condition with that code, and no branch rule fails or writes a
flag. -/
theorem branchConditions : Obligations.BranchConditions := by
  refine ⟨fun ccc b2 b3 small => ?conditions, fun i s member => ?rules⟩
  case conditions =>
    obtain ⟨cond, rfl⟩ := Cond.exists_code_eq small
    rw [cond.decodeOp_jump, cond.decodeOp_call, cond.decodeOp_ret]
    exact ⟨cond, branchCond_condJump cond _, branchCond_condCall cond _, branchCond_condRet cond,
      fun f => f.holds_iff_chosenBy cond, fun f bit => f.holds_set_ac bit cond⟩
  case rules =>
    obtain ⟨t, completes, keeps⟩ := exec_branch member s
    rw [completes]
    refine ⟨⟨t, rfl⟩, ?_, fun _ => nofun⟩
    rintro u ⟨⟩
    exact keeps

/-- Settles O21: each rule is one write of pc or SP, and a pair holds the number its halves make. -/
theorem jumpAndHLTransfers : Obligations.JumpAndHLTransfers := by
  intro addr b s
  rw [← s.pair_eq_ofNat .hl]
  exact ⟨⟨rowIs_jmp addr b, rowIs_pchl b, rowIs_sphl b⟩, ⟨_, exec_jmp addr s, rfl, State.stores_nothing rfl⟩,
    ⟨_, exec_pchl s, rfl, State.stores_nothing rfl⟩, _, exec_sphl s, rfl, State.stores_nothing rfl⟩

/-- One conditional jump, by its condition: the row both ways and the write of pc. -/
theorem condJump_row_and_rule (cond : Cond) (addr : Word) (s : State) :
    RowIs (cond.jump addr) true [0xC2 + 8 * cond.code.toNat, lowPart addr, highPart addr] [.f, .r, .r] 10 ∧
    RowIs (cond.jump addr) false [0xC2 + 8 * cond.code.toNat, lowPart addr, highPart addr] [.f, .r] 7 ∧
    ∃ t, exec (cond.jump addr) s = .next t ∧ t = { s with pc := if s.flags.holds cond then addr else s.pc } ∧
      s.Stores t [] :=
  ⟨rowIs_condJump cond addr true, rowIs_condJump cond addr false, s.jumpIf cond addr, exec_condJump cond addr s,
    s.jumpIf_eq cond addr, State.stores_nothing (by rw [State.jumpIf_eq])⟩

/-- Settles O22: the eight are the jumps on the eight conditions. -/
theorem conditionalJumps : Obligations.ConditionalJumps := by
  intro addr s
  simp only [List.forall_mem_cons]
  exact ⟨condJump_row_and_rule .nz addr s, condJump_row_and_rule .z addr s, condJump_row_and_rule .nc addr s,
    condJump_row_and_rule .c addr s, condJump_row_and_rule .po addr s, condJump_row_and_rule .pe addr s,
    condJump_row_and_rule .p addr s, condJump_row_and_rule .m addr s, List.forall_mem_nil _⟩

end Sys2Proof.Machine
end

section
/-! PROOFS. OUT (45_stack_io_control.md R258): its row, its rule, and the statement about it. -/

namespace Sys2Proof.Machine

theorem rowIs_outPort (port : Byte) (b : Bool) : RowIs (.outPort port) b [0xD3, port.toNat] [.f, .r, .o] 10 :=
  rowIs_two rfl rfl rfl rfl

theorem exec_outPort (port : Byte) (s : State) :
    exec (.outPort port) s = .next (s.note (.ioWrite port s.regs.a)) := rfl

/-- A noted bus event changes the environment's side only. -/
theorem State.note_frame (s : State) (e : BusEvent) : s.note e = { s with env := (s.note e).env } := rfl

/-- A noted bus event is the one the environment sees. -/
theorem State.sees_note (s : State) (e : BusEvent) : s.Sees (s.note e) [e] := rfl

/-- Settles O36: the rule is one noted bus event. -/
theorem outputToPort : Obligations.OutputToPort := by
  intro port b s
  have quiet : s.Stores (s.note (.ioWrite port s.regs.a)) [] := State.stores_nothing (s.note_mem _)
  exact ⟨rowIs_outPort port b, s.note (.ioWrite port s.regs.a), exec_outPort port s, s.note_frame _, quiet,
    s.sees_note _⟩

end Sys2Proof.Machine
end

section
/-! PROOFS. The rows of the remaining instructions: LHLD and SHLD, the subtractions, DCR, INX, DCX, DAA, the comparisons, calls,
returns and restarts, the stack, I/O and machine control group. -/

namespace Sys2Proof.Machine

/-! ### Data transfer and arithmetic (41_data_transfer.md, 42_arithmetic.md, 43_logical.md) -/

theorem rowIs_lhld (addr : Word) (b : Bool) :
    RowIs (.lhld addr) b [0x2A, lowPart addr, highPart addr] [.f, .r, .r, .r, .r] 16 :=
  rowIs_three rfl rfl (fun _ _ h => h ▸ rfl) rfl

theorem rowIs_shld (addr : Word) (b : Bool) :
    RowIs (.shld addr) b [0x22, lowPart addr, highPart addr] [.f, .r, .r, .w, .w] 16 :=
  rowIs_three rfl rfl (fun _ _ h => h ▸ rfl) rfl

theorem rowIs_subR (src : Reg) (b : Bool) : RowIs (.subR src) b [0x90 + src.code.toNat] [.f] 4 := by
  cases src <;> exact rowIs_one rfl rfl rfl rfl

theorem rowIs_subM (b : Bool) : RowIs .subM b [0x96] [.f, .r] 7 := rowIs_one rfl rfl rfl rfl

theorem rowIs_sui (v : Byte) (b : Bool) : RowIs (.sui v) b [0xD6, v.toNat] [.f, .r] 7 := rowIs_two rfl rfl rfl rfl

theorem rowIs_sbbR (src : Reg) (b : Bool) : RowIs (.sbbR src) b [0x98 + src.code.toNat] [.f] 4 := by
  cases src <;> exact rowIs_one rfl rfl rfl rfl

theorem rowIs_sbbM (b : Bool) : RowIs .sbbM b [0x9E] [.f, .r] 7 := rowIs_one rfl rfl rfl rfl

theorem rowIs_sbi (v : Byte) (b : Bool) : RowIs (.sbi v) b [0xDE, v.toNat] [.f, .r] 7 := rowIs_two rfl rfl rfl rfl

theorem rowIs_dcrR (dst : Reg) (b : Bool) : RowIs (.dcrR dst) b [0x05 + 8 * dst.code.toNat] [.f] 4 := by
  cases dst <;> exact rowIs_one rfl rfl rfl rfl

theorem rowIs_dcrM (b : Bool) : RowIs .dcrM b [0x35] [.f, .r, .w] 10 := rowIs_one rfl rfl rfl rfl

theorem rowIs_inx (rp : Pair) (b : Bool) : RowIs (.inx rp) b [0x03 + 16 * rp.code.toNat] [.s] 6 := by
  cases rp <;> exact rowIs_one rfl rfl rfl rfl

theorem rowIs_dcx (rp : Pair) (b : Bool) : RowIs (.dcx rp) b [0x0B + 16 * rp.code.toNat] [.s] 6 := by
  cases rp <;> exact rowIs_one rfl rfl rfl rfl

theorem rowIs_daa (b : Bool) : RowIs .daa b [0x27] [.f] 4 := rowIs_one rfl rfl rfl rfl

theorem rowIs_cmpR (src : Reg) (b : Bool) : RowIs (.cmpR src) b [0xB8 + src.code.toNat] [.f] 4 := by
  cases src <;> exact rowIs_one rfl rfl rfl rfl

theorem rowIs_cmpM (b : Bool) : RowIs .cmpM b [0xBE] [.f, .r] 7 := rowIs_one rfl rfl rfl rfl

theorem rowIs_cpi (v : Byte) (b : Bool) : RowIs (.cpi v) b [0xFE, v.toNat] [.f, .r] 7 := rowIs_two rfl rfl rfl rfl

/-! ### Calls, returns and restarts (44_branch.md) -/

theorem rowIs_call (addr : Word) (b : Bool) :
    RowIs (.call addr) b [0xCD, lowPart addr, highPart addr] [.s, .r, .r, .w, .w] 18 :=
  rowIs_three rfl rfl (fun _ _ h => h ▸ rfl) rfl

/-- A conditional call reads byte 3 and pushes, in three more machine cycles, only when it is taken. -/
theorem rowIs_condCall (cond : Cond) (addr : Word) (taken : Bool) :
    RowIs (cond.call addr) taken [0xC4 + 8 * cond.code.toNat, lowPart addr, highPart addr]
      (if taken then [.s, .r, .r, .w, .w] else [.s, .r]) (if taken then 18 else 9) := by
  cases cond <;> exact rowIs_three rfl rfl (fun _ _ h => h ▸ rfl) rfl

theorem rowIs_ret (b : Bool) : RowIs .ret b [0xC9] [.f, .r, .r] 10 := rowIs_one rfl rfl rfl rfl

/-- A conditional return pops, in two more machine cycles, only when it is taken. -/
theorem rowIs_condRet (cond : Cond) (taken : Bool) :
    RowIs cond.ret taken [0xC0 + 8 * cond.code.toNat] (if taken then [.s, .r, .r] else [.s]) (if taken then 12 else 6) := by
  cases cond <;> exact rowIs_one rfl rfl rfl rfl

theorem rowIs_rst {n : Nat} (small : n < 8) (b : Bool) : RowIs (.rst n) b [0xC7 + 8 * n] [.s, .w, .w] 12 := by
  interval_cases n <;> exact rowIs_one rfl rfl rfl rfl

/-! ### Stack, I/O and machine control (45_stack_io_control.md) -/

theorem rowIs_push (rp : StackPair) (b : Bool) : RowIs (.push rp) b [0xC5 + 16 * rp.code.toNat] [.s, .w, .w] 12 := by
  cases rp <;> exact rowIs_one rfl rfl rfl rfl

theorem rowIs_pushPsw (b : Bool) : RowIs .pushPsw b [0xF5] [.s, .w, .w] 12 := rowIs_one rfl rfl rfl rfl

theorem rowIs_pop (rp : StackPair) (b : Bool) : RowIs (.pop rp) b [0xC1 + 16 * rp.code.toNat] [.f, .r, .r] 10 := by
  cases rp <;> exact rowIs_one rfl rfl rfl rfl

theorem rowIs_popPsw (b : Bool) : RowIs .popPsw b [0xF1] [.f, .r, .r] 10 := rowIs_one rfl rfl rfl rfl

theorem rowIs_xthl (b : Bool) : RowIs .xthl b [0xE3] [.f, .r, .r, .w, .w] 16 := rowIs_one rfl rfl rfl rfl

theorem rowIs_inPort (port : Byte) (b : Bool) : RowIs (.inPort port) b [0xDB, port.toNat] [.f, .r, .i] 10 :=
  rowIs_two rfl rfl rfl rfl

theorem rowIs_ei (b : Bool) : RowIs .ei b [0xFB] [.f] 4 := rowIs_one rfl rfl rfl rfl

theorem rowIs_di (b : Bool) : RowIs .di b [0xF3] [.f] 4 := rowIs_one rfl rfl rfl rfl

theorem rowIs_hlt (b : Bool) : RowIs .hlt b [0x76] [.f, .b] 5 := rowIs_one rfl rfl rfl rfl

theorem rowIs_nop (b : Bool) : RowIs .nop b [0x00] [.f] 4 := rowIs_one rfl rfl rfl rfl

theorem rowIs_rim (b : Bool) : RowIs .rim b [0x20] [.f] 4 := rowIs_one rfl rfl rfl rfl

theorem rowIs_sim (b : Bool) : RowIs .sim b [0x30] [.f] 4 := rowIs_one rfl rfl rfl rfl

end Sys2Proof.Machine
end

section
/-! PROOFS. Decoding and encoding are inverse (30_encoding.md sections 1 to 4): every row's bytes decode to its instruction,
whatever follows, and every first byte with its operand bytes is the encoding of what it decodes to. -/

namespace Sys2Proof.Machine

/-! ### From instructions to bytes and back -/

/-- The bytes of a row decode to its instruction. -/
theorem RowIs.decodes {i : Instr} {b : Bool} {bytes : List Nat} {cycles : List Cycle} {states : Nat}
    (row : RowIs i b bytes cycles states) : decode (encode i) = .ok (i, []) := by
  obtain ⟨-, decodes, -, -⟩ := row
  exact decodes

/-- The encoding of every well-formed instruction decodes to it. A conditional branch is found through its condition. -/
theorem decode_encode (i : Instr) (wf : i.WellFormed) : decode (encode i) = .ok (i, []) := by
  cases i with
  | movRR dst src => exact (rowIs_movRR dst src true).decodes
  | movRM dst => exact (rowIs_movRM dst true).decodes
  | movMR src => exact (rowIs_movMR src true).decodes
  | mviR dst v => exact (rowIs_mviR dst v true).decodes
  | mviM v => exact (rowIs_mviM v true).decodes
  | lxi rp w => exact (rowIs_lxi rp w true).decodes
  | lda w => exact (rowIs_lda w true).decodes
  | sta w => exact (rowIs_sta w true).decodes
  | lhld w => exact (rowIs_lhld w true).decodes
  | shld w => exact (rowIs_shld w true).decodes
  | ldax rp => exact (rowIs_ldax rp true).decodes
  | stax rp => exact (rowIs_stax rp true).decodes
  | addR src => exact (rowIs_addR src true).decodes
  | adi v => exact (rowIs_adi v true).decodes
  | adcR src => exact (rowIs_adcR src true).decodes
  | aci v => exact (rowIs_aci v true).decodes
  | subR src => exact (rowIs_subR src true).decodes
  | sui v => exact (rowIs_sui v true).decodes
  | sbbR src => exact (rowIs_sbbR src true).decodes
  | sbi v => exact (rowIs_sbi v true).decodes
  | inrR dst => exact (rowIs_inrR dst true).decodes
  | dcrR dst => exact (rowIs_dcrR dst true).decodes
  | inx rp => exact (rowIs_inx rp true).decodes
  | dcx rp => exact (rowIs_dcx rp true).decodes
  | dad rp => exact (rowIs_dad rp true).decodes
  | anaR src => exact (rowIs_anaR src true).decodes
  | ani v => exact (rowIs_ani v true).decodes
  | xraR src => exact (rowIs_xraR src true).decodes
  | xri v => exact (rowIs_xri v true).decodes
  | oraR src => exact (rowIs_oraR src true).decodes
  | ori v => exact (rowIs_ori v true).decodes
  | cmpR src => exact (rowIs_cmpR src true).decodes
  | cpi v => exact (rowIs_cpi v true).decodes
  | jmp w => exact (rowIs_jmp w true).decodes
  | jnz w => exact (rowIs_condJump .nz w true).decodes
  | jz w => exact (rowIs_condJump .z w true).decodes
  | jnc w => exact (rowIs_condJump .nc w true).decodes
  | jc w => exact (rowIs_condJump .c w true).decodes
  | jpo w => exact (rowIs_condJump .po w true).decodes
  | jpe w => exact (rowIs_condJump .pe w true).decodes
  | jp w => exact (rowIs_condJump .p w true).decodes
  | jm w => exact (rowIs_condJump .m w true).decodes
  | call w => exact (rowIs_call w true).decodes
  | cnz w => exact (rowIs_condCall .nz w true).decodes
  | cz w => exact (rowIs_condCall .z w true).decodes
  | cnc w => exact (rowIs_condCall .nc w true).decodes
  | cc w => exact (rowIs_condCall .c w true).decodes
  | cpo w => exact (rowIs_condCall .po w true).decodes
  | cpe w => exact (rowIs_condCall .pe w true).decodes
  | cp w => exact (rowIs_condCall .p w true).decodes
  | cm w => exact (rowIs_condCall .m w true).decodes
  | rst n => exact (rowIs_rst (of_decide_eq_true wf) true).decodes
  | push rp => exact (rowIs_push rp true).decodes
  | pop rp => exact (rowIs_pop rp true).decodes
  | inPort v => exact (rowIs_inPort v true).decodes
  | outPort v => exact (rowIs_outPort v true).decodes
  | _ => rfl

/-! ### The decoder, by the length of the instruction -/

theorem decode_of_length_one {op : Byte} (len : opLength op = 1) (rest : List Byte) :
    decode (op :: rest) = .ok (decodeOp op 0 0, rest) := by simp only [decode, len]

theorem decode_of_length_two {op : Byte} (len : opLength op = 2) (b2 : Byte) (rest : List Byte) :
    decode (op :: b2 :: rest) = .ok (decodeOp op b2 0, rest) := by simp only [decode, len]

theorem decode_of_length_three {op : Byte} (len : opLength op = 3) (b2 b3 : Byte) (rest : List Byte) :
    decode (op :: b2 :: b3 :: rest) = .ok (decodeOp op b2 b3, rest) := by simp only [decode, len]

/-- All that a successful decode can be: one, two or three bytes, as many as the first one calls for. -/
theorem decode_cases {bytes left : List Byte} {i : Instr} (h : decode bytes = .ok (i, left)) :
    (∃ op, opLength op = 1 ∧ bytes = op :: left ∧ i = decodeOp op 0 0) ∨
    (∃ op b2, opLength op = 2 ∧ bytes = op :: b2 :: left ∧ i = decodeOp op b2 0) ∨
    (∃ op b2 b3, opLength op = 3 ∧ bytes = op :: b2 :: b3 :: left ∧ i = decodeOp op b2 b3) := by
  unfold decode at h
  split at h
  · cases h
  · split at h
    · next len => cases h; exact .inl ⟨_, len, rfl, rfl⟩
    · next len => cases h; exact .inr (.inl ⟨_, _, len, rfl, rfl⟩)
    · next len => cases h; exact .inr (.inr ⟨_, _, _, len, rfl, rfl⟩)
    · cases h

/-- Bytes that follow an instruction are left over. -/
theorem decode_append {bytes left : List Byte} {i : Instr} (h : decode bytes = .ok (i, left)) (more : List Byte) :
    decode (bytes ++ more) = .ok (i, left ++ more) := by
  rcases decode_cases h with ⟨op, len, rfl, rfl⟩ | ⟨op, b2, len, rfl, rfl⟩ | ⟨op, b2, b3, len, rfl, rfl⟩
  · exact decode_of_length_one len _
  · exact decode_of_length_two len b2 _
  · exact decode_of_length_three len b2 b3 _

/-- Settles O46: the encoding alone decodes to the instruction, and what follows is left over. -/
theorem encodedInstructionsDecode : Obligations.EncodedInstructionsDecode :=
  fun i rest wf => decode_append (decode_encode i wf) rest

/-! ### From bytes to instructions and back -/

/-- The bytes that begin an instruction of two bytes (30_encoding.md R94). -/
def twoByteOps : List Byte :=
  [0x06, 0x0E, 0x16, 0x1E, 0x26, 0x2E, 0x36, 0x3E, 0xC6, 0xCE, 0xD6, 0xDE, 0xE6, 0xEE, 0xF6, 0xFE, 0xD3, 0xDB]

/-- The bytes that begin an instruction of three bytes (30_encoding.md R94). -/
def threeByteOps : List Byte :=
  [0x01, 0x11, 0x21, 0x31, 0x22, 0x2A, 0x32, 0x3A, 0xC2, 0xCA, 0xD2, 0xDA, 0xE2, 0xEA, 0xF2, 0xFA,
    0xC4, 0xCC, 0xD4, 0xDC, 0xE4, 0xEC, 0xF4, 0xFC, 0xC3, 0xCD]

theorem mem_twoByteOps : ∀ op : Byte, opLength op = 2 → op ∈ twoByteOps := by decide +kernel

theorem mem_threeByteOps : ∀ op : Byte, opLength op = 3 → op ∈ threeByteOps := by decide +kernel

/-- An address put together from two bytes is laid out as those bytes. -/
theorem encodeA3_joinBytes (op b2 b3 : Byte) : encodeA3 op (joinBytes b3 b2) = [op, b2, b3] := by
  rw [encodeA3, lowByte_join, highByte_join]

/-- What a first byte without operand bytes decodes to is well-formed and has that one byte. -/
theorem encode_decodeOp_one : ∀ op : Byte, opLength op = 1 →
    (decodeOp op 0 0).WellFormed ∧ encode (decodeOp op 0 0) = [op] := by decide +kernel

/-- What a first byte and byte 2 decode to is well-formed and has those two bytes. -/
theorem encode_decodeOp_two (op b2 : Byte) (len : opLength op = 2) :
    (decodeOp op b2 0).WellFormed ∧ encode (decodeOp op b2 0) = [op, b2] := by
  have listed := mem_twoByteOps op len
  fin_cases listed <;> exact ⟨rfl, rfl⟩

/-- What a first byte and bytes 2 and 3 decode to is well-formed and has those three bytes. -/
theorem encode_decodeOp_three (op b2 b3 : Byte) (len : opLength op = 3) :
    (decodeOp op b2 b3).WellFormed ∧ encode (decodeOp op b2 b3) = [op, b2, b3] := by
  have listed := mem_threeByteOps op len
  fin_cases listed <;> exact ⟨rfl, encodeA3_joinBytes _ b2 b3⟩

/-- What is decoded is well-formed, and its encoding is the bytes that were consumed. -/
theorem encode_of_decode {bytes left : List Byte} {i : Instr} (h : decode bytes = .ok (i, left)) :
    i.WellFormed ∧ encode i ++ left = bytes := by
  rcases decode_cases h with ⟨op, len, rfl, rfl⟩ | ⟨op, b2, len, rfl, rfl⟩ | ⟨op, b2, b3, len, rfl, rfl⟩
  · obtain ⟨wf, enc⟩ := encode_decodeOp_one op len
    exact ⟨wf, by rw [enc]; rfl⟩
  · obtain ⟨wf, enc⟩ := encode_decodeOp_two op b2 len
    exact ⟨wf, by rw [enc]; rfl⟩
  · obtain ⟨wf, enc⟩ := encode_decodeOp_three op b2 b3 len
    exact ⟨wf, by rw [enc]; rfl⟩

/-- Three bytes hold a whole instruction, since none is longer. -/
theorem three_bytes_decode (op b2 b3 : Byte) (rest : List Byte) :
    ∃ i left, decode (op :: b2 :: b3 :: rest) = .ok (i, left) := by
  rcases opLength_cases op with len | len | len
  · exact ⟨_, _, decode_of_length_one len _⟩
  · exact ⟨_, _, decode_of_length_two len b2 _⟩
  · exact ⟨_, _, decode_of_length_three len b2 b3 _⟩

/-- Settles O47: by the three lengths an instruction can have. -/
theorem decodedBytesAreTheEncoding : Obligations.DecodedBytesAreTheEncoding :=
  ⟨fun _ _ _ h => encode_of_decode h, three_bytes_decode⟩

/-- Settles O45: each word is the encoding of its instruction. -/
theorem tableWordsDecode : Obligations.TableWordsDecode := by
  unfold Obligations.TableWordsDecode
  decide

end Sys2Proof.Machine
end

section
/-! PROOFS. Two accesses in a row, at two addresses: LHLD and SHLD (41_data_transfer.md R139, R140), and what the stack does later
on. -/

namespace Sys2Proof.Machine

/-! ### Two reads, two writes -/

/-- The second of two reads returns the content as it was before the first: a read leaves memory alone. -/
theorem State.readsAs_peek_noteRead (s : State) (a b : Word) : s.ReadsAs b ((s.noteRead a).peek b) := by
  intro populated
  rw [State.peek_populated _ _ (by rwa [State.kindAt_noteRead]), State.byteAt_noteRead]

/-- The accesses of two reads. -/
theorem State.sees_noteRead_noteRead (s : State) (a b : Word) :
    s.Sees ((s.noteRead a).noteRead b) [.memRead a (s.peek a), .memRead b ((s.noteRead a).peek b)] :=
  (State.sees_noteRead s _ a rfl).append (State.sees_noteRead _ _ b rfl)

/-- The accesses of two writes. -/
theorem State.sees_writeByte_writeByte (s : State) (a b : Word) (v w : Byte) :
    s.Sees ((s.writeByte a v).writeByte b w) [.memWrite a v, .memWrite b w] :=
  (s.sees_writeByte a v).append ((s.writeByte a v).sees_writeByte b w)

/-- Two bytes written at two addresses. -/
theorem State.stores_writeByte_writeByte (s t : State) (a b : Word) (v w : Byte) (hw : s.mem.wf = true) (ne : b ≠ a)
    (h : t.mem = ((s.writeByte a v).writeByte b w).mem) : s.Stores t [(a, v), (b, w)] := by
  have reads : ∀ c, t.byteAt c = ((s.writeByte a v).writeByte b w).byteAt c := fun c => by simp only [State.byteAt, h]
  refine ⟨fun c hc => ?others, fun cell hcell ram => ?written⟩
  case others =>
    obtain ⟨hca, hcb⟩ : c ≠ a ∧ c ≠ b := by simpa using hc
    rw [reads, State.byteAt_writeByte_other _ _ _ _ hcb, State.byteAt_writeByte_other _ _ _ _ hca]
  case written =>
    obtain rfl | rfl : cell = (a, v) ∨ cell = (b, w) := by simpa using hcell
    · rw [reads, State.byteAt_writeByte_other _ _ _ _ ne.symm, State.byteAt_writeByte_same _ _ _ hw ram]
    · rw [reads]
      exact State.byteAt_writeByte_same _ _ _ (s.wf_writeByte a v hw) (by rwa [State.kindAt_writeByte])

/-- Two writes change memory and the environment's side only. -/
theorem State.writeByte_writeByte_frame (s : State) (a b : Word) (v w : Byte) :
    (s.writeByte a v).writeByte b w =
      { s with mem := ((s.writeByte a v).writeByte b w).mem, env := ((s.writeByte a v).writeByte b w).env } := by
  simp only [State.writeByte_eq]

/-- Two reads change the environment's side only. -/
theorem State.noteRead_noteRead_frame (s : State) (a b : Word) :
    (s.noteRead a).noteRead b = { s with env := ((s.noteRead a).noteRead b).env } := by
  rw [State.noteRead_frame, State.noteRead_frame]

/-! ### LHLD and SHLD -/

theorem exec_lhld (addr : Word) (s : State) :
    exec (.lhld addr) s =
      .next (((s.noteRead addr).noteRead (addr + 1)).setPair .hl
        (joinBytes ((s.noteRead addr).peek (addr + 1)) (s.peek addr))) := rfl

theorem exec_shld (addr : Word) (s : State) :
    exec (.shld addr) s = .next ((s.writeByte addr s.regs.l).writeByte (addr + 1) s.regs.h) := rfl

/-- Writing H:L with a joined value writes its halves. -/
theorem State.setPair_hl_joinBytes (s : State) (high low : Byte) :
    s.setPair .hl (joinBytes high low) = { s with regs.h := high, regs.l := low } := by
  simp only [State.setPair, highByte_join, lowByte_join]

theorem word_succ_ne (a : Word) : a + 1 ≠ a := by bv_omega

/-- Settles O7: LHLD is two reads and a pair write, SHLD two writes. -/
theorem loadAndStoreHLDirect : Obligations.LoadAndStoreHLDirect := by
  intro addr b s hw
  refine ⟨rowIs_lhld addr b, rowIs_shld addr b, ?load, ?store⟩
  case load =>
    refine ⟨_, s.peek addr, (s.noteRead addr).peek (addr + 1), exec_lhld addr s, ?_, State.stores_nothing (by simp),
      s.readsAs_peek addr, s.readsAs_peek_noteRead addr (addr + 1), ?_⟩
    · rw [State.setPair_hl_joinBytes, State.noteRead_noteRead_frame]
    · exact s.sees_noteRead_noteRead addr (addr + 1)
  case store =>
    exact ⟨_, exec_shld addr s, s.writeByte_writeByte_frame ..,
      s.stores_writeByte_writeByte _ _ _ _ _ hw (word_succ_ne addr) rfl,
      s.sees_writeByte_writeByte ..⟩

end Sys2Proof.Machine
end

section
/-! PROOFS. SUB, SUI, SBB, SBI, CMP, CPI, DCR, INX and DCX (42_arithmetic.md, 43_logical.md). -/

namespace Sys2Proof.Machine

/-! ### Each rule, as one action -/

theorem exec_subR (src : Reg) (s : State) : exec (.subR src) s = .next (s.subFromA (s.reg src) false) := rfl

theorem exec_subM (s : State) : exec .subM s = .next ((s.noteRead s.addrM).subFromA (s.peek s.addrM) false) := rfl

theorem exec_sui (v : Byte) (s : State) : exec (.sui v) s = .next (s.subFromA v false) := rfl

theorem exec_sbbR (src : Reg) (s : State) : exec (.sbbR src) s = .next (s.subFromA (s.reg src) s.flags.cy) := rfl

theorem exec_sbbM (s : State) : exec .sbbM s = .next ((s.noteRead s.addrM).subFromA (s.peek s.addrM) s.flags.cy) := rfl

theorem exec_sbi (v : Byte) (s : State) : exec (.sbi v) s = .next (s.subFromA v s.flags.cy) := rfl

theorem exec_cmpR (src : Reg) (s : State) : exec (.cmpR src) s = .next (s.compareA (s.reg src)) := rfl

theorem exec_cmpM (s : State) : exec .cmpM s = .next ((s.noteRead s.addrM).compareA (s.peek s.addrM)) := rfl

theorem exec_cpi (v : Byte) (s : State) : exec (.cpi v) s = .next (s.compareA v) := rfl

theorem exec_dcrR (dst : Reg) (s : State) : exec (.dcrR dst) s = .next (s.stepReg dst (decrement (s.reg dst))) := rfl

theorem exec_dcrM (s : State) : exec .dcrM s = .next (s.afterReadM.stepM (decrement (s.peek s.addrM))) := rfl

theorem exec_inx (rp : Pair) (s : State) : exec (.inx rp) s = .next (s.setPair rp (s.pair rp + 1)) := rfl

theorem exec_dcx (rp : Pair) (s : State) : exec (.dcx rp) s = .next (s.setPair rp (s.pair rp - 1)) := rfl

/-! ### A difference taken into A -/

/-- The difference in A and its flags, from any state `u` that holds the registers of `s`, such as `s` after a read. -/
theorem State.subtractsFromA_subFromA {s u : State} (v : Byte) (borrow : Bool) (same : u.regs = s.regs) :
    s.SubtractsFromA (u.subFromA v borrow) v borrow := by
  unfold State.SubtractsFromA State.subFromA
  rw [same]
  constructor
  · show { u.regs with a := (sub8 s.regs.a v borrow).res } = _
    rw [same, sub8_res]
  · exact sub8_flags ..

/-- A rule that subtracts a register or an immediate operand from A. -/
theorem subtractsOperand_of_exec {s : State} {v : Byte} {borrow : Bool} {out : Outcome}
    (h : out = .next (s.subFromA v borrow)) :
    ∃ t, out = .next t ∧ t = { s with regs := t.regs, flags := t.flags } ∧ s.Stores t [] ∧ s.SubtractsFromA t v borrow :=
  ⟨s.subFromA v borrow, h, s.accumulate_frame _, State.stores_nothing rfl, State.subtractsFromA_subFromA v borrow rfl⟩

/-- A rule that subtracts M from A. -/
theorem subtractsM_of_exec {s : State} {borrow : Bool} {out : Outcome}
    (h : out = .next ((s.noteRead s.addrM).subFromA (s.peek s.addrM) borrow)) :
    ∃ t m, out = .next t ∧ t = { s with regs := t.regs, flags := t.flags, env := t.env } ∧ s.Stores t [] ∧
      s.ReadsAs s.addrM m ∧ s.Sees t [.memRead s.addrM m] ∧ s.SubtractsFromA t m borrow := by
  obtain ⟨stores, sees⟩ := s.accumulate_accesses s.addrM (sub8 (s.noteRead s.addrM).regs.a (s.peek s.addrM) borrow)
  exact ⟨_, s.peek s.addrM, h, s.accumulate_noteRead_frame s.addrM _, stores, s.readsAs_peek s.addrM, sees,
    State.subtractsFromA_subFromA (s.peek s.addrM) borrow (s.noteRead_regs s.addrM)⟩

/-- Settles O10: each form subtracts its operand from A, the M forms after one read. -/
theorem subtractions : Obligations.Subtractions := by
  intro r v b s
  exact ⟨⟨rowIs_subR r b, rowIs_subM b, rowIs_sui v b, rowIs_sbbR r b, rowIs_sbbM b, rowIs_sbi v b⟩,
    subtractsOperand_of_exec (exec_subR r s), subtractsM_of_exec (exec_subM s), subtractsOperand_of_exec (exec_sui v s),
    subtractsOperand_of_exec (exec_sbbR r s), subtractsM_of_exec (exec_sbbM s), subtractsOperand_of_exec (exec_sbi v s)⟩

/-! ### A comparison -/

/-- The flags of a comparison: those of the difference, which is 0 exactly between equal bytes. -/
theorem compare_flags (x y : Byte) :
    (sub8 x y false).flags.OfDifference x y false ∧ ((sub8 x y false).flags.z = true ↔ x = y) ∧
      ((sub8 x y false).flags.cy = true ↔ x.toNat < y.toNat) := by
  have difference := sub8_flags x y false
  have ⟨⟨zero, _, _⟩, carry, _⟩ := difference
  refine ⟨difference, ?_, by simpa using carry⟩
  have hx := x.isLt
  have hy := y.isLt
  rw [zero, ← BitVec.toNat_inj]
  simp only [BitVec.toNat_ofNat, Bool.toNat_false]
  omega

/-- A rule that compares A with a register or an immediate operand. -/
theorem comparesOperand_of_exec {s : State} {v : Byte} {out : Outcome} (h : out = .next (s.compareA v)) :
    ∃ t, out = .next t ∧ t = { s with flags := t.flags } ∧ s.Stores t [] ∧ t.flags.OfDifference s.regs.a v false ∧
      (t.flags.z = true ↔ s.regs.a = v) ∧ (t.flags.cy = true ↔ s.regs.a.toNat < v.toNat) :=
  ⟨s.compareA v, h, rfl, State.stores_nothing rfl, compare_flags s.regs.a v⟩

/-- The same rule from the state after the read of M, which has the registers of the state before. -/
theorem comparesM_of_exec {s : State} {out : Outcome} (h : out = .next ((s.noteRead s.addrM).compareA (s.peek s.addrM))) :
    ∃ t m, out = .next t ∧ t = { s with flags := t.flags, env := t.env } ∧ s.Stores t [] ∧
      s.ReadsAs s.addrM m ∧ s.Sees t [.memRead s.addrM m] ∧ t.flags.OfDifference s.regs.a m false ∧
      (t.flags.z = true ↔ s.regs.a = m) ∧ (t.flags.cy = true ↔ s.regs.a.toNat < m.toNat) := by
  have flags := compare_flags (s.noteRead s.addrM).regs.a (s.peek s.addrM)
  rw [State.noteRead_regs] at flags
  refine ⟨_, s.peek s.addrM, h, ?_, State.stores_nothing (s.noteRead_mem _), s.readsAs_peek s.addrM,
    State.sees_noteRead s _ s.addrM rfl, ?_⟩
  · show (s.noteRead s.addrM).setFlags _ = _
    rw [State.noteRead_frame]; rfl
  · simpa [State.compareA] using flags

/-- Settles O18: each form writes the flags of the difference and nothing else. -/
theorem compares : Obligations.Compares := by
  intro r v b s
  exact ⟨⟨rowIs_cmpR r b, rowIs_cmpM b, rowIs_cpi v b⟩, comparesOperand_of_exec (exec_cmpR r s),
    comparesM_of_exec (exec_cmpM s), comparesOperand_of_exec (exec_cpi v s)⟩

/-! ### Decrements -/

theorem decrement_res (v : Byte) : (decrement v).res = BitVec.ofNat 8 (v.toNat + 255) := sub8_res v 1 false

/-- The flags of a decrement: Z, S and P are the result's, CY is the old one, and the low-order half borrows from 0000 only. -/
theorem decrement_flags (v : Byte) (old : Flags) :
    ((decrement v).flagsKeepCy old).ZspOf (decrement v).res ∧ ((decrement v).flagsKeepCy old).cy = old.cy ∧
      (((decrement v).flagsKeepCy old).ac = true ↔ v.toNat % 16 ≠ 0) := by
  obtain ⟨zsp, cy, ac⟩ := (decrement v).flagsKeepCy_spec old
  obtain ⟨-, -, borrow⟩ := sub8_flags v 1 false
  have nonzero : (decrement v).ac = true ↔ 1 ≤ v.toNat % 16 := borrow
  refine ⟨zsp, cy, ?_⟩
  rw [ac, nonzero]
  omega

/-- Settles O12: the register, or M after its read, takes the decremented value, and CY is the old one. -/
theorem decrements : Obligations.Decrements := by
  intro r b s hw
  refine ⟨rowIs_dcrR r b, rowIs_dcrM b, ?register, ?memory⟩
  case register =>
    refine ⟨_, exec_dcrR r s, s.stepReg_frame r _, State.stores_nothing (by simp), fun q => ?_, ?_⟩
    · rw [State.reg_stepReg, decrement_res]
    · rw [State.reg_stepReg, if_pos rfl]
      exact decrement_flags (s.reg r) s.flags
  case memory =>
    obtain ⟨stores, sees⟩ := s.stepM_accesses (decrement (s.peek s.addrM)) hw
    refine ⟨_, s.peek s.addrM, _, exec_dcrM s, s.stepM_afterReadM_frame _, s.readsAs_peek s.addrM,
      decrement_res (s.peek s.addrM), stores, sees, ?_⟩
    rw [State.stepM_afterReadM_flags]
    exact decrement_flags (s.peek s.addrM) s.flags

/-- A rule that writes a pair, in numbers. -/
theorem setsPair_of_exec {s : State} {rp : Pair} {v : Word} {n : Nat} {out : Outcome} (h : out = .next (s.setPair rp v))
    (value : v = BitVec.ofNat 16 n) :
    ∃ t, out = .next t ∧ t = { s with regs := t.regs, sp := t.sp } ∧ s.Stores t [] ∧ s.PairSet t rp n :=
  ⟨_, h, s.setPair_frame rp v, State.stores_nothing (s.setPair_mem rp v), s.pairSet_setPair rp v n value⟩

/-- Settles O13: one write of the pair; subtracting 1 is adding 65535 modulo 2^16. -/
theorem pairIncrementAndDecrement : Obligations.PairIncrementAndDecrement := by
  intro rp b s
  refine ⟨rowIs_inx rp b, rowIs_dcx rp b, setsPair_of_exec (exec_inx rp s) ?_, setsPair_of_exec (exec_dcx rp s) ?_⟩
  all_goals
    rw [s.pair_eq_ofNat rp]
    bv_omega

end Sys2Proof.Machine
end

section
/-! PROOFS. DAA (42_arithmetic.md R172, the spec's reading D3): its two sums in numbers, and that it turns a binary sum of packed
decimal numbers into the decimal one. -/

namespace Sys2Proof.Machine

/-! ### The two sums -/

/-- The sum of DAA's step 1: 6 more where the low-order digit is above 9 or AC is set. -/
def daaFirst (acc : Nat) (ac : Bool) : Nat := acc + if 9 < acc % 16 ∨ ac = true then 6 else 0

/-- The sum of DAA's step 2, from the sum of step 1: 96 more where the high-order
digit is above 9, CY is set or step 1 carried. -/
def daaSecond (first : Nat) (cy : Bool) : Nat :=
  first % 256 + if 9 < first % 256 / 16 ∨ cy = true ∨ 256 ≤ first then 96 else 0

theorem nine_lt_lowDigit (v : Byte) : 9 < v.extractLsb' 0 4 ↔ 9 < v.toNat % 16 := by
  rw [BitVec.lt_def, BitVec.extractLsb'_toNat]
  simp

theorem nine_lt_highDigit (v : Byte) : 9 < v.extractLsb' 4 4 ↔ 9 < v.toNat / 16 := by
  have := v.isLt
  rw [BitVec.lt_def, BitVec.extractLsb'_toNat, Nat.shiftRight_eq_div_pow]
  simp
  omega

theorem daaLow_res (acc : Byte) (ac : Bool) : (daaLow acc ac).res = BitVec.ofNat 8 (daaFirst acc.toNat ac) := by
  rw [daaLow, add8_res, daaFirst]
  simp only [nine_lt_lowDigit]
  split <;> simp

theorem daaLow_cy (acc : Byte) (ac : Bool) : (daaLow acc ac).cy = true ↔ 256 ≤ daaFirst acc.toNat ac := by
  rw [daaLow, add8_cy, daaFirst]
  simp only [nine_lt_lowDigit]
  split <;> simp

theorem daaLow_ac (acc : Byte) (ac : Bool) :
    (daaLow acc ac).ac = true ↔ (9 < acc.toNat % 16 ∨ ac = true) ∧ 16 ≤ acc.toNat % 16 + 6 := by
  rw [daaLow, add8_ac]
  simp only [nine_lt_lowDigit]
  split
  · next six => simp [six]
  · next none => simp [none]; omega

theorem toNat_daaLow_res (acc : Byte) (ac : Bool) : (daaLow acc ac).res.toNat = daaFirst acc.toNat ac % 256 := by
  rw [daaLow_res, BitVec.toNat_ofNat]

theorem daaOut_res (acc : Byte) (cy ac : Bool) :
    (daaOut acc cy ac).res = BitVec.ofNat 8 (daaSecond (daaFirst acc.toNat ac) cy) := by
  rw [daaOut, daaHigh, add8_res, daaSecond]
  simp only [nine_lt_highDigit, daaLow_cy, toNat_daaLow_res]
  split <;> simp

theorem daaOut_cy (acc : Byte) (cy ac : Bool) :
    (daaOut acc cy ac).cy = true ↔
      cy = true ∨ 256 ≤ daaFirst acc.toNat ac ∨ 256 ≤ daaSecond (daaFirst acc.toNat ac) cy := by
  have high : (daaHigh (daaLow acc ac) cy).cy = true ↔ 256 ≤ daaSecond (daaFirst acc.toNat ac) cy := by
    rw [daaHigh, add8_cy, daaSecond]
    simp only [nine_lt_highDigit, daaLow_cy, toNat_daaLow_res]
    split <;> simp
  simp only [daaOut, Bool.or_eq_true, daaLow_cy, high, or_assoc]

theorem exec_daa (s : State) : exec .daa s = .next (s.accumulate (daaOut s.regs.a s.flags.cy s.flags.ac)) := rfl

/-- Settles O15: the result and the flags are those of the two sums. -/
theorem decimalAdjust : Obligations.DecimalAdjust := by
  intro b s
  refine ⟨rowIs_daa b, _, exec_daa s, ?_, State.stores_nothing rfl, zspOf_flagsOf .., daaOut_cy .., daaLow_ac ..⟩
  show s.accumulate _ = { s with regs := { s.regs with a := BitVec.ofNat 8 (daaSecond (daaFirst _ _) _) }, flags := _ }
  rw [← daaOut_res]
  rfl

/-! ### Packed decimal numbers -/

theorem toNat_packedDigits {n : Nat} (h : n < 100) : (packedDigits n).toNat = 16 * (n / 10) + n % 10 := by
  rw [packedDigits, BitVec.toNat_ofNat]
  omega

section
variable {tens units first : Nat} {cy ac : Bool}

/-- Step 1 mends the low-order digit: from a binary sum of packed numbers it adds 6 exactly where the units pass 9. -/
theorem daaFirst_of_packed (hu : units ≤ 19) (hac : ac = true ↔ 16 ≤ units) :
    daaFirst ((16 * tens + units) % 256) ac = (16 * tens + units) % 256 + if 10 ≤ units then 6 else 0 := by
  simp only [daaFirst, hac]
  split <;> split <;> omega

/-- Step 2 mends the high-order digit, and the carry of the two steps is the decimal one. -/
theorem daaSecond_of_packed (ht : tens ≤ 19) (hu : units ≤ 9) (hfirst : first % 256 = (16 * tens + units) % 256)
    (hcy : cy = true ∨ 256 ≤ first ↔ 16 ≤ tens) :
    daaSecond first cy % 256 = 16 * ((10 * tens + units) % 100 / 10) + (10 * tens + units) % 100 % 10 ∧
      (cy = true ∨ 256 ≤ first ∨ 256 ≤ daaSecond first cy ↔ 100 ≤ 10 * tens + units) := by
  have wraps : (16 * tens + units) % 256 = 16 * (tens % 16) + units := by omega
  rw [wraps] at hfirst
  have adjusts : 9 < first % 256 / 16 ∨ cy = true ∨ 256 ≤ first ↔ 10 ≤ tens := by rw [hcy, hfirst]; omega
  simp only [daaSecond, adjusts]
  rw [← or_assoc, hcy, hfirst]
  clear hfirst hcy adjusts
  by_cases high : 10 ≤ tens
  · have digits : (10 * tens + units) % 100 = 10 * (tens - 10) + units := by omega
    rw [if_pos high, digits]
    rcases Nat.lt_or_ge tens 16 with below | above
    · rw [Nat.mod_eq_of_lt below]
      omega
    · omega
  · have digits : (10 * tens + units) % 100 = 10 * tens + units := by omega
    rw [if_neg high, digits]
    omega

/-- Both steps: the units' decimal carry goes into the tens, and the number of tens and units is the same. -/
theorem daa_of_packed (ht : tens ≤ 18) (hu : units ≤ 19) (hcy : cy = true ↔ 256 ≤ 16 * tens + units)
    (hac : ac = true ↔ 16 ≤ units) :
    daaSecond (daaFirst ((16 * tens + units) % 256) ac) cy % 256 =
        16 * ((10 * tens + units) % 100 / 10) + (10 * tens + units) % 100 % 10 ∧
      (cy = true ∨ 256 ≤ daaFirst ((16 * tens + units) % 256) ac ∨
          256 ≤ daaSecond (daaFirst ((16 * tens + units) % 256) ac) cy ↔ 100 ≤ 10 * tens + units) := by
  have hfirst := daaFirst_of_packed (tens := tens) hu hac
  by_cases carry : 10 ≤ units
  · rw [if_pos carry] at hfirst
    have same : 10 * tens + units = 10 * (tens + 1) + (units - 10) := by omega
    rw [same]
    exact daaSecond_of_packed (by omega) (by omega) (by omega) (by rw [hcy]; omega)
  · rw [if_neg carry] at hfirst
    exact daaSecond_of_packed (by omega) (by omega) (by omega) (by rw [hcy]; omega)

end

/-- Two rules, one after the other. -/
theorem runRules_pair {i j : Instr} {s t u : State} (first : exec i s = .next t) (second : exec j t = .next u) :
    runRules [i, j] s = .next u := by
  simp only [runRules, first, second]

@[simp] theorem State.accumulate_a (s : State) (out : AluOut) : (s.accumulate out).regs.a = out.res := rfl

@[simp] theorem State.accumulate_cy (s : State) (out : AluOut) : (s.accumulate out).flags.cy = out.cy := rfl

@[simp] theorem State.accumulate_ac (s : State) (out : AluOut) : (s.accumulate out).flags.ac = out.ac := rfl

/-- Tens and units added apart make the whole sum. -/
theorem tens_and_units (x y c : Nat) : 10 * (x / 10 + y / 10) + (x % 10 + y % 10 + c) = x + y + c := by omega

/-- Settles O16: with the tens and the units added apart, the two steps of DAA in numbers. -/
theorem decimalSumIsDecimal : Obligations.DecimalSumIsDecimal := by
  intro x y s hx hy ha
  have carry := Bool.toNat_le s.flags.cy
  have hsum : s.regs.a.toNat + (packedDigits y).toNat + s.flags.cy.toNat =
      16 * (x / 10 + y / 10) + (x % 10 + y % 10 + s.flags.cy.toNat) := by
    rw [ha, toNat_packedDigits hx, toNat_packedDigits hy]; omega
  have hlow : s.regs.a.toNat % 16 + (packedDigits y).toNat % 16 + s.flags.cy.toNat = x % 10 + y % 10 + s.flags.cy.toNat := by
    rw [ha, toNat_packedDigits hx, toNat_packedDigits hy]; omega
  have hres := add8_res s.regs.a (packedDigits y) s.flags.cy
  have hcy := add8_cy s.regs.a (packedDigits y) s.flags.cy
  have hac := add8_ac s.regs.a (packedDigits y) s.flags.cy
  rw [hsum] at hres hcy
  rw [hlow] at hac
  obtain ⟨digits, overflow⟩ := daa_of_packed (by omega) (by omega) hcy hac
  rw [tens_and_units] at digits overflow
  refine ⟨_, runRules_pair (exec_aci _ s) (exec_daa _), ?result, ?carry⟩
  case result =>
    rw [State.addToA, State.accumulate_a, State.accumulate_a, State.accumulate_cy, State.accumulate_ac, daaOut_res, hres,
      BitVec.toNat_ofNat]
    apply BitVec.eq_of_toNat_eq
    rw [BitVec.toNat_ofNat, toNat_packedDigits (Nat.mod_lt _ (by decide))]
    exact digits
  case carry =>
    rw [State.addToA, State.accumulate_cy, State.accumulate_a, State.accumulate_cy, State.accumulate_ac, daaOut_cy, hres,
      BitVec.toNat_ofNat]
    exact overflow

end Sys2Proof.Machine
end

section
/-! PROOFS. Pushes and pops in the words of the statements (10_state.md R23, 20_memory.md R72), then CALL, RST and RET
(44_branch.md sections 3 to 5). -/

namespace Sys2Proof.Machine

/-! ### Halves of a 16-bit value, in numbers -/

theorem highByte_eq_ofNat (w : Word) : highByte w = BitVec.ofNat 8 (highPart w) := by
  apply BitVec.eq_of_toNat_eq
  have := w.isLt
  rw [toNat_highByte, BitVec.toNat_ofNat, highPart]
  omega

theorem lowByte_eq_ofNat (w : Word) : lowByte w = BitVec.ofNat 8 (lowPart w) := by
  apply BitVec.eq_of_toNat_eq
  rw [toNat_lowByte, BitVec.toNat_ofNat, lowPart]
  omega

theorem joinBytes_eq_ofNat (high low : Byte) : joinBytes high low = BitVec.ofNat 16 (256 * high.toNat + low.toNat) := by
  apply BitVec.eq_of_toNat_eq
  rw [toNat_joinBytes, BitVec.toNat_ofNat]
  omega

/-! ### Two states with the same memory map and contents, or the same environment's side -/

/-- What a state stores can be said from any state with the same memory and platform. -/
theorem State.Stores.of_same {s u t : State} {cells : List (Word × Byte)} (stores : u.Stores t cells)
    (mem : u.mem = s.mem) (params : u.env.params = s.env.params) : s.Stores t cells := by
  obtain ⟨others, written⟩ := stores
  refine ⟨fun a ha => ?_, fun c hc ram => written c hc ?_⟩
  · rw [others a ha, State.byteAt, State.byteAt, mem]
  · rwa [State.IsRam, State.kindAt, params]

/-- What was stored is stored as long as memory stays the same. -/
theorem State.Stores.of_mem_eq {s u t : State} {cells : List (Word × Byte)} (stores : s.Stores u cells)
    (mem : t.mem = u.mem) : s.Stores t cells := by
  obtain ⟨others, written⟩ := stores
  refine ⟨fun a ha => ?_, fun c hc ram => ?_⟩
  · rw [← others a ha, State.byteAt, State.byteAt, mem]
  · rw [← written c hc ram, State.byteAt, State.byteAt, mem]

/-- One more draw is no bus event. -/
theorem State.Sees.countDraw {s t : State} {events : List BusEvent} (sees : s.Sees t events) :
    s.Sees t.countDraw events := by
  unfold State.Sees at *
  show { t.env with draws := t.env.draws + 1 } = _
  rw [sees]
  rfl

/-! ### Pushes -/

theorem sub_two_ne_sub_one (a : Word) : a - 2 ≠ a - 1 := by bv_omega

/-- A push in the words of the statements. -/
theorem State.pushes_push16 (s : State) (v : Word) (hw : s.mem.wf = true) : s.Pushes (s.push16 v) (highByte v) (lowByte v) :=
  ⟨s.push16_sp v, s.stores_writeByte_writeByte _ _ _ _ _ hw (sub_two_ne_sub_one s.sp) rfl,
    s.sees_writeByte_writeByte (s.sp - 1) (s.sp - 2) (highByte v) (lowByte v)⟩

/-- A push changes SP, memory and the environment's side only. -/
theorem State.push16_frame (s : State) (v : Word) :
    s.push16 v = { s with sp := (s.push16 v).sp, mem := (s.push16 v).mem, env := (s.push16 v).env } := by
  simp only [State.push16, State.writeByte_eq, State.setSp]

/-- A call in the words of the statements. -/
theorem State.calls_callTo (s : State) (target : Word) (hw : s.mem.wf = true) : s.Calls (s.callTo target) target := by
  refine ⟨?_, ?_⟩
  · show (s.push16 s.pc).setPc target = _
    rw [State.push16_frame]
    rfl
  · rw [← highByte_eq_ofNat, ← lowByte_eq_ofNat]
    exact s.pushes_push16 s.pc hw

/-! ### Pops -/

/-- The two stack reads in the words of the statements, from any state that differs from the one after the pop in neither SP,
memory nor the environment's side. -/
theorem State.pops_of_same {s t : State} (sp : t.sp = s.sp + 2) (mem : t.mem = s.mem) (env : t.env = s.readStack.env) :
    s.Pops t s.popHigh s.popLow := by
  refine ⟨sp, s.readsAs_peek s.sp, s.readsAs_peek_noteRead s.sp (s.sp + 1), State.stores_nothing mem, ?_⟩
  unfold State.Sees
  rw [env]
  exact s.sees_noteRead_noteRead s.sp (s.sp + 1)

/-- A pop changes SP and the environment's side only. -/
theorem State.dropStack_frame (s : State) : s.dropStack = { s with sp := s.sp + 2, env := s.readStack.env } := by
  rw [State.dropStack, State.readStack, State.noteRead_noteRead_frame]
  rfl

/-- A return in the words of the statements. -/
theorem State.returns_return16 (s : State) : s.Returns s.return16 := by
  refine ⟨s.popHigh, s.popLow, ?_, State.pops_of_same s.return16_sp s.return16_mem rfl⟩
  rw [← joinBytes_eq_ofNat, State.return16, State.dropStack_frame]
  rfl

/-! ### What is popped after a push -/

section
variable {s u : State} {v : Word}

/-- The low-order byte popped is that of the value pushed, from any state that has the stack of the one after the push. -/
theorem State.popLow_of_pushed (hw : s.mem.wf = true) (ram : s.IsRam (s.sp - 2)) (sp : u.sp = s.sp - 2)
    (mem : u.mem = (s.push16 v).mem) (params : u.env.params = s.env.params) : u.popLow = lowByte v := by
  have kind : u.kindAt (s.sp - 2) = .ram := by rw [State.kindAt, params]; exact ram
  rw [State.popLow, sp, State.peek_populated _ _ (by rw [kind]; decide), State.byteAt, mem]
  exact s.byteAt_push16_low v hw ram

/-- The same for the high-order byte. -/
theorem State.popHigh_of_pushed (hw : s.mem.wf = true) (ram : s.IsRam (s.sp - 1)) (sp : u.sp = s.sp - 2)
    (mem : u.mem = (s.push16 v).mem) (params : u.env.params = s.env.params) : u.popHigh = highByte v := by
  have kind : u.kindAt (s.sp - 1) = .ram := by rw [State.kindAt, params]; exact ram
  have above : u.sp + 1 = s.sp - 1 := by rw [sp]; bv_omega
  rw [State.popHigh, above, State.peek_populated _ _ (by rw [State.kindAt_noteRead, kind]; decide), State.byteAt_noteRead,
    State.byteAt, mem]
  exact s.byteAt_push16_high v hw ram

end

/-! ### The statements about calls and returns -/

/-- The address of a restart. -/
theorem restart_address {n : Nat} (small : n < 8) : (BitVec.ofNat 3 n).setWidth 16 * 8 = BitVec.ofNat 16 (8 * n) := by
  interval_cases n <;> rfl

/-- A restart is a call of its address. -/
theorem exec_rst_callTo {n : Nat} (small : n < 8) (s : State) :
    exec (.rst n) s = .next (s.callTo (BitVec.ofNat 16 (8 * n))) := by
  rw [exec_rst, State.restart, restart_address small]

/-- Settles O23: both rules call an address. -/
theorem callAndRestart : Obligations.CallAndRestart := by
  intro addr n b s hw small
  exact ⟨rowIs_call addr b, rowIs_rst small b, ⟨_, exec_call addr s, s.calls_callTo addr hw⟩,
    _, exec_rst_callTo small s, s.calls_callTo _ hw⟩

/-- One conditional call, by its condition: the row both ways, and a call or nothing. -/
theorem condCall_row_and_rule (cond : Cond) (addr : Word) (s : State) (hw : s.mem.wf = true) :
    RowIs (cond.call addr) true [0xC4 + 8 * cond.code.toNat, lowPart addr, highPart addr] [.s, .r, .r, .w, .w] 18 ∧
    RowIs (cond.call addr) false [0xC4 + 8 * cond.code.toNat, lowPart addr, highPart addr] [.s, .r] 9 ∧
    ∃ t, exec (cond.call addr) s = .next t ∧ if s.flags.holds cond then s.Calls t addr else t = s := by
  refine ⟨rowIs_condCall cond addr true, rowIs_condCall cond addr false, _, exec_condCall cond addr s, ?_⟩
  unfold State.callIf
  split
  · exact s.calls_callTo addr hw
  · rfl

/-- Settles O24: the eight are the calls on the eight conditions. -/
theorem conditionalCalls : Obligations.ConditionalCalls := by
  intro addr s hw
  simp only [List.forall_mem_cons]
  exact ⟨condCall_row_and_rule .nz addr s hw, condCall_row_and_rule .z addr s hw, condCall_row_and_rule .nc addr s hw,
    condCall_row_and_rule .c addr s hw, condCall_row_and_rule .po addr s hw, condCall_row_and_rule .pe addr s hw,
    condCall_row_and_rule .p addr s hw, condCall_row_and_rule .m addr s hw, List.forall_mem_nil _⟩

/-- One conditional return, by its condition: the row both ways, and a return or nothing. -/
theorem condRet_row_and_rule (cond : Cond) (s : State) :
    RowIs cond.ret true [0xC0 + 8 * cond.code.toNat] [.s, .r, .r] 12 ∧
    RowIs cond.ret false [0xC0 + 8 * cond.code.toNat] [.s] 6 ∧
    ∃ t, exec cond.ret s = .next t ∧ if s.flags.holds cond then s.Returns t else t = s := by
  refine ⟨rowIs_condRet cond true, rowIs_condRet cond false, _, exec_condRet cond s, ?_⟩
  unfold State.returnIf
  split
  · exact s.returns_return16
  · rfl

/-- Settles O25: RET, and the returns on the eight conditions. -/
theorem returnsAndConditionalReturns : Obligations.ReturnsAndConditionalReturns := by
  intro b s
  refine ⟨rowIs_ret b, ⟨_, exec_ret s, s.returns_return16⟩, ?_⟩
  simp only [List.forall_mem_cons]
  exact ⟨condRet_row_and_rule .nz s, condRet_row_and_rule .z s, condRet_row_and_rule .nc s, condRet_row_and_rule .c s,
    condRet_row_and_rule .po s, condRet_row_and_rule .pe s, condRet_row_and_rule .p s, condRet_row_and_rule .m s,
    List.forall_mem_nil _⟩

/-- A call, then a return: pc and SP are back, the two stack bytes stay written. -/
theorem runRules_call_ret {i : Instr} {target : Word} {s : State} (hw : s.mem.wf = true) (ram1 : s.IsRam (s.sp - 1))
    (ram2 : s.IsRam (s.sp - 2)) (rule : exec i s = .next (s.callTo target)) :
    ∃ t, runRules [i, .ret] s = .next t ∧ t = { s with mem := t.mem, env := t.env } ∧
      s.Stores t [(s.sp - 1, BitVec.ofNat 8 (highPart s.pc)), (s.sp - 2, BitVec.ofNat 8 (lowPart s.pc))] ∧
      s.Sees t [.memWrite (s.sp - 1) (BitVec.ofNat 8 (highPart s.pc)), .memWrite (s.sp - 2) (BitVec.ofNat 8 (lowPart s.pc)),
        .memRead (s.sp - 2) (BitVec.ofNat 8 (lowPart s.pc)), .memRead (s.sp - 1) (BitVec.ofNat 8 (highPart s.pc))] := by
  have low : (s.callTo target).popLow = lowByte s.pc := State.popLow_of_pushed hw ram2 (s.callTo_sp target) rfl (by simp)
  have high : (s.callTo target).popHigh = highByte s.pc := State.popHigh_of_pushed hw ram1 (s.callTo_sp target) rfl (by simp)
  have sp : s.sp - 2 + 2 = s.sp := by bv_omega
  have above : s.sp - 2 + 1 = s.sp - 1 := by bv_omega
  obtain ⟨-, -, stores, writes⟩ := s.calls_callTo target hw
  obtain ⟨-, -, -, -, reads⟩ :=
    State.pops_of_same (t := (s.callTo target).return16) (State.return16_sp _) (State.return16_mem _) rfl
  refine ⟨_, runRules_pair rule (exec_ret _), ?frame, ?stores, ?sees⟩
  case frame =>
    rw [State.return16, low, high, joinBytes_halves, State.dropStack_frame, State.callTo_sp, sp]
    simp [State.setPc]
  case stores =>
    exact stores.of_mem_eq (State.return16_mem _)
  case sees =>
    rw [low, high, State.callTo_sp, above, lowByte_eq_ofNat, highByte_eq_ofNat] at reads
    exact writes.append reads

/-- Settles O33: CALL and RST n are each a call of an address. -/
theorem callThenReturn : Obligations.CallThenReturn := by
  intro addr n s hw ram1 ram2 small
  simp only [List.forall_mem_cons]
  exact ⟨runRules_call_ret hw ram1 ram2 (exec_call addr s), runRules_call_ret hw ram1 ram2 (exec_rst_callTo small s),
    List.forall_mem_nil _⟩

end Sys2Proof.Machine
end

section
/-! PROOFS. PUSH, POP and XTHL (45_stack_io_control.md section 2). -/

namespace Sys2Proof.Machine

theorem exec_push (rp : StackPair) (s : State) : exec (.push rp) s = .next (s.push16 (s.pair (pairOfStack rp))) := rfl

theorem exec_pushPsw (s : State) :
    exec .pushPsw s =
      .next (s.push16 (joinBytes s.regs.a (flagWord s.flags (Config.pswX s.env.draws)))).countDraw := rfl

theorem exec_pop (rp : StackPair) (s : State) :
    exec (.pop rp) s = .next (s.dropStack.setPair (pairOfStack rp) (joinBytes s.popHigh s.popLow)) := rfl

theorem exec_popPsw (s : State) :
    exec .popPsw s = .next ((s.dropStack.setFlags (flagsOfWord s.popLow)).setReg .a s.popHigh) := rfl

/-! ### PUSH -/

/-- Settles O27: one push of the pair. -/
theorem pushPair : Obligations.PushPair := by
  intro rp b s hw
  have pushes := s.pushes_push16 (s.pair (pairOfStack rp)) hw
  have low : BitVec.ofNat 8 (s.pairNat (pairOfStack rp)) = lowByte (s.pair (pairOfStack rp)) := by
    rw [lowByte_eq_ofNat, lowPart, State.toNat_pair]
    exact BitVec.eq_of_toNat_eq (by simp)
  rw [highByte_eq_ofNat, highPart, State.toNat_pair, ← low] at pushes
  exact ⟨rowIs_push rp b, _, exec_push rp s, s.push16_frame _, pushes⟩

/-- Settles O28: one push of A and the flag word, and one draw, for the flag word's three free bits. -/
theorem pushStatusWord : Obligations.PushStatusWord := by
  intro b s hw
  have pushes := s.pushes_push16 (joinBytes s.regs.a (flagWord s.flags (Config.pswX s.env.draws))) hw
  rw [highByte_join, lowByte_join] at pushes
  obtain ⟨sp, stores, sees⟩ := pushes
  refine ⟨rowIs_pushPsw b, _, _, exec_pushPsw s, ?_, ⟨sp, stores, sees.countDraw⟩, flagWord_bits ..⟩
  rw [State.push16_frame]
  rfl

/-! ### POP -/

/-- Settles O29: one pop into the pair. -/
theorem popPair : Obligations.PopPair := by
  intro rp b s
  refine ⟨rowIs_pop rp b, _, s.popHigh, s.popLow, exec_pop rp s, ?frame, State.pops_of_same ?sp (by simp) ?env, ?regs⟩
  case frame =>
    rw [State.setPair_frame, State.dropStack_frame]
  case sp => cases rp <;> exact s.dropStack_sp
  case env => rw [State.setPair_env]; rfl
  case regs => cases rp <;> simp [State.setPair, pairOfStack]

/-- Settles O30: one pop into the flags and A. -/
theorem popStatusWord : Obligations.PopStatusWord := by
  intro b s
  refine ⟨rowIs_popPsw b, _, s.popHigh, s.popLow, exec_popPsw s, ?_, State.pops_of_same ?_ (by simp) rfl, rfl⟩
  · rw [State.dropStack_frame]; rfl
  · rw [State.setReg_sp, State.setFlags_sp, State.dropStack_sp]

/-- PUSH PSW then POP PSW: the two bytes popped are the A and the flag word pushed, from which the flags come back. -/
theorem runRules_pushPsw_popPsw {s : State} (hw : s.mem.wf = true) (ram1 : s.IsRam (s.sp - 1)) (ram2 : s.IsRam (s.sp - 2)) :
    ∃ v, runRules [.pushPsw, .popPsw] s =
      .next (((s.push16 v).countDraw.dropStack.setFlags s.flags).setReg .a s.regs.a) := by
  have low : ∀ v, (s.push16 v).countDraw.popLow = lowByte v := fun v =>
    State.popLow_of_pushed hw ram2 (s.push16_sp v) rfl (s.push16_env_params v)
  have high : ∀ v, (s.push16 v).countDraw.popHigh = highByte v := fun v =>
    State.popHigh_of_pushed hw ram1 (s.push16_sp v) rfl (s.push16_env_params v)
  refine ⟨joinBytes s.regs.a (flagWord s.flags (Config.pswX s.env.draws)), runRules_pair (exec_pushPsw s) ?_⟩
  rw [exec_popPsw, low, high, lowByte_join, highByte_join, flagsOfWord_flagWord]

/-- Settles O32: A and the flags come back from the stack, and SP falls and rises by 2. -/
theorem pushThenPopStatusWord : Obligations.PushThenPopStatusWord := by
  intro s hw ram1 ram2
  obtain ⟨v, runs⟩ := runRules_pushPsw_popPsw hw ram1 ram2
  refine ⟨_, runs, ?regs, by simp, ?sp, by simp, fun a ha1 ha2 => ?others⟩
  case regs =>
    show { (s.push16 v).countDraw.dropStack.regs with a := s.regs.a } = s.regs
    rw [State.dropStack_regs, State.countDraw_regs, State.push16_regs]
  case sp =>
    simp only [State.setReg_sp, State.setFlags_sp, State.dropStack_sp, State.countDraw_sp, State.push16_sp]
    bv_omega
  case others =>
    rw [State.byteAt, State.setReg_mem, State.setFlags_mem, State.dropStack_mem]
    exact s.byteAt_push16_other v a ha1 ha2

/-! ### XTHL -/

/-- The state after XTHL: both reads, both writes, then H:L. -/
def State.exchangeTop (s : State) : State :=
  ((s.readStack.writeByte s.sp s.regs.l).writeByte (s.sp + 1) s.regs.h).setPair .hl (joinBytes s.popHigh s.popLow)

theorem exec_xthl (s : State) : exec .xthl s = .next s.exchangeTop := rfl

/-- The two reads of the stack leave memory and the platform as they are. -/
theorem State.readStack_frame (s : State) : s.readStack = { s with env := s.readStack.env } :=
  s.noteRead_noteRead_frame s.sp (s.sp + 1)

theorem State.readStack_mem (s : State) : s.readStack.mem = s.mem := by rw [State.readStack_frame]

theorem State.readStack_params (s : State) : s.readStack.env.params = s.env.params := by
  simp only [State.readStack, State.noteRead_env_params]

/-- XTHL changes H, L, memory and the environment's side only. -/
theorem State.exchangeTop_frame (s : State) :
    s.exchangeTop = { s with regs.l := s.popLow, regs.h := s.popHigh, mem := s.exchangeTop.mem, env := s.exchangeTop.env } := by
  rw [State.exchangeTop, State.setPair_hl_joinBytes, State.writeByte_writeByte_frame, State.readStack_frame]

/-- XTHL stores L and H over the two bytes it reads. -/
theorem State.exchangeTop_stores (s : State) (hw : s.mem.wf = true) :
    s.Stores s.exchangeTop [(s.sp, s.regs.l), (s.sp + 1, s.regs.h)] := by
  have stores := s.readStack.stores_writeByte_writeByte s.exchangeTop s.sp (s.sp + 1) s.regs.l s.regs.h
    (by rwa [State.readStack_mem]) (word_succ_ne s.sp) rfl
  exact stores.of_same s.readStack_mem s.readStack_params

/-- XTHL makes both reads before both writes. -/
theorem State.exchangeTop_sees (s : State) :
    s.Sees s.exchangeTop [.memRead s.sp s.popLow, .memRead (s.sp + 1) s.popHigh, .memWrite s.sp s.regs.l,
      .memWrite (s.sp + 1) s.regs.h] :=
  State.Sees.append (s.sees_noteRead_noteRead s.sp (s.sp + 1))
    (s.readStack.sees_writeByte_writeByte s.sp (s.sp + 1) s.regs.l s.regs.h)

/-- XTHL keeps the canonical form of memory. -/
theorem State.exchangeTop_wf (s : State) (hw : s.mem.wf = true) : s.exchangeTop.mem.wf = true := by
  rw [State.exchangeTop, State.setPair_mem]
  exact State.wf_writeByte _ _ _ (State.wf_writeByte _ _ _ (by rwa [State.readStack_mem]))

/-- Settles O31: the frame, the reads, the stores and the accesses of XTHL. -/
theorem exchangeTopOfStack : Obligations.ExchangeTopOfStack := by
  intro b s hw
  exact ⟨rowIs_xthl b, _, s.popLow, s.popHigh, exec_xthl s, s.exchangeTop_frame, s.readsAs_peek s.sp,
    s.readsAs_peek_noteRead s.sp (s.sp + 1), s.exchangeTop_stores hw, s.exchangeTop_sees⟩

/-- XTHL leaves the platform as it is. -/
theorem State.exchangeTop_isRam (s : State) (a : Word) : s.exchangeTop.IsRam a ↔ s.IsRam a := by
  have params : s.exchangeTop.env.params = s.env.params := by
    simp only [State.exchangeTop, State.setPair_env, State.writeByte_env_params, State.readStack_params]
  rw [State.IsRam, State.IsRam, State.kindAt, State.kindAt, params]

/-- A pop from RAM returns the two stack bytes. -/
theorem State.pop_eq_byteAt {s : State} (ram1 : s.IsRam s.sp) (ram2 : s.IsRam (s.sp + 1)) :
    s.popLow = s.byteAt s.sp ∧ s.popHigh = s.byteAt (s.sp + 1) :=
  ⟨s.readsAs_peek s.sp (by rw [State.Populated, ram1]; decide),
    s.readsAs_peek_noteRead s.sp (s.sp + 1) (by rw [State.Populated, ram2]; decide)⟩

/-- After XTHL in RAM the stack holds the L and H of before. -/
theorem State.pop_exchangeTop {s : State} (hw : s.mem.wf = true) (ram1 : s.IsRam s.sp) (ram2 : s.IsRam (s.sp + 1)) :
    s.exchangeTop.popLow = s.regs.l ∧ s.exchangeTop.popHigh = s.regs.h := by
  have sp : s.exchangeTop.sp = s.sp := by rw [State.exchangeTop_frame]
  obtain ⟨-, written⟩ := s.exchangeTop_stores hw
  obtain ⟨low, high⟩ := State.pop_eq_byteAt (s := s.exchangeTop) (by rwa [sp, State.exchangeTop_isRam])
    (by rwa [sp, State.exchangeTop_isRam])
  rw [low, high, sp]
  exact ⟨written (s.sp, s.regs.l) (by simp) ram1, written (s.sp + 1, s.regs.h) (by simp) ram2⟩

/-- Settles O34: the second XTHL reads what the first one stored and stores what the first one read. -/
theorem exchangeTopOfStackTwice : Obligations.ExchangeTopOfStackTwice := by
  intro s hw ram1 ram2
  have sp : s.exchangeTop.sp = s.sp := by rw [State.exchangeTop_frame]
  have low : s.exchangeTop.regs.l = s.popLow := by rw [State.exchangeTop_frame]
  have high : s.exchangeTop.regs.h = s.popHigh := by rw [State.exchangeTop_frame]
  obtain ⟨backLow, backHigh⟩ := State.pop_exchangeTop hw ram1 ram2
  obtain ⟨readLow, readHigh⟩ := State.pop_eq_byteAt ram1 ram2
  obtain ⟨others, -⟩ := s.exchangeTop_stores hw
  obtain ⟨others', written'⟩ := s.exchangeTop.exchangeTop_stores (s.exchangeTop_wf hw)
  rw [sp, low, high] at others' written'
  refine ⟨_, runRules_pair (exec_xthl s) (exec_xthl s.exchangeTop), ?frame, fun a => ?contents⟩
  case frame =>
    rw [State.exchangeTop_frame, backLow, backHigh, State.exchangeTop_frame]
  case contents =>
    by_cases atLow : a = s.sp
    · rw [atLow, written' (s.sp, s.popLow) (by simp) ((s.exchangeTop_isRam _).mpr ram1), readLow]
    · by_cases atHigh : a = s.sp + 1
      · rw [atHigh, written' (s.sp + 1, s.popHigh) (by simp) ((s.exchangeTop_isRam _).mpr ram2), readHigh]
      · rw [others' a (by simpa using ⟨atLow, atHigh⟩), others a (by simpa using ⟨atLow, atHigh⟩)]

end Sys2Proof.Machine
end

section
/-! PROOFS. IN, EI, DI, HLT, RIM, SIM (45_stack_io_control.md sections 3 to 5), the ten undefined first bytes (30_encoding.md
R118), and the state after reset (70_reset_and_hazards.md section 1). -/

namespace Sys2Proof.Machine

/-! ### Each rule, as one action -/

theorem exec_inPort (port : Byte) (s : State) :
    exec (.inPort port) s = .next ((s.noteIoRead port).setReg .a (s.ioValue port)) := rfl

theorem exec_ei (s : State) : exec .ei s = .next (s.setIrq { s.irq with eiPending := true }) := rfl

theorem exec_di (s : State) : exec .di s = .next (s.setIrq { s.irq with ie := false, eiPending := false }) := rfl

theorem exec_hlt (s : State) : exec .hlt s = .next { s with halted := true } := rfl

theorem exec_nop (s : State) : exec .nop s = .next s := rfl

theorem exec_rim (s : State) :
    exec .rim s = .next ((s.setReg .a s.rimByte).setIrq { s.irq with trapTaken := false }).countDraw := rfl

theorem exec_sim (s : State) :
    exec .sim s = .next ((s.setIrq (simIrq s.irq s.regs.a)).driveSod (simSod s.sod s.regs.a)) := rfl

/-! ### IN, EI and DI -/

/-- The byte an IN reads is the scheduled one, where one is scheduled. -/
theorem State.ioValue_of_scheduled {s : State} {w : Byte} (port : Byte) (h : s.now.portByte = some w) :
    s.ioValue port = w := by
  rw [State.ioValue, h, Option.getD_some]

/-- Settles O35: one I/O read, one draw, and the register write. -/
theorem inputFromPort : Obligations.InputFromPort := by
  intro port b s
  exact ⟨rowIs_inPort port b, _, s.ioValue port, exec_inPort port s, rfl, State.stores_nothing rfl,
    (s.sees_note (.ioRead port (s.ioValue port))).countDraw, fun _ => State.ioValue_of_scheduled port⟩

/-- Settles O37: each rule is one write of the interrupt cells. -/
theorem enableAndDisable : Obligations.EnableAndDisable := by
  intro b s
  exact ⟨rowIs_ei b, rowIs_di b, ⟨_, exec_ei s, rfl, State.stores_nothing rfl⟩,
    _, exec_di s, rfl, State.stores_nothing rfl⟩

/-! ### RIM -/

/-- Each of the eight bits of a RIM stands in its place. -/
theorem State.rimByte_bits (s : State) :
    (s.rimByte.getLsbD 0 = s.irq.m55 ∧ s.rimByte.getLsbD 1 = s.irq.m65 ∧ s.rimByte.getLsbD 2 = s.irq.m75 ∧
      s.rimByte.getLsbD 3 = s.rimEnableBit) ∧
    s.rimByte.getLsbD 4 = s.rimLevel55 ∧ s.rimByte.getLsbD 5 = s.rimLevel65 ∧ s.rimByte.getLsbD 6 = s.irq.i75 ∧
      s.rimByte.getLsbD 7 = s.serialLevel := by
  have all : ∀ b7 b6 b5 b4 b3 b2 b1 b0 : Bool,
      let v : Byte := BitVec.ofBool b7 ++ BitVec.ofBool b6 ++ BitVec.ofBool b5 ++ BitVec.ofBool b4 ++ BitVec.ofBool b3 ++
        BitVec.ofBool b2 ++ BitVec.ofBool b1 ++ BitVec.ofBool b0
      (v.getLsbD 0 = b0 ∧ v.getLsbD 1 = b1 ∧ v.getLsbD 2 = b2 ∧ v.getLsbD 3 = b3) ∧
        v.getLsbD 4 = b4 ∧ v.getLsbD 5 = b5 ∧ v.getLsbD 6 = b6 ∧ v.getLsbD 7 = b7 := by decide
  exact all ..

/-- Bit 3 of a RIM in the two cases that fix it. -/
theorem State.rimEnableBit_eq (s : State) :
    (s.irq.trapTaken = true → s.rimEnableBit = s.irq.ieBeforeTrap) ∧
      (s.irq.trapTaken = false → s.irq.eiPending = false → s.rimEnableBit = s.irq.ie) := by
  refine ⟨fun taken => ?_, fun untaken settled => ?_⟩
  · simp only [State.rimEnableBit, taken, if_true]
  · simp only [State.rimEnableBit, untaken, settled, Bool.false_eq_true, if_false]

/-- Settles O40: A takes the eight bits, TRAP_TAKEN is cleared, and one draw is made. -/
theorem readInterruptMasks : Obligations.ReadInterruptMasks := by
  intro b s
  obtain ⟨⟨m55, m65, m75, enable⟩, level55, level65, i75, serial⟩ := s.rimByte_bits
  obtain ⟨first, later⟩ := s.rimEnableBit_eq
  refine ⟨rowIs_rim b, _, exec_rim s, State.stores_nothing rfl, rfl, rfl, m55, m65, m75, fun taken => ?_,
    fun untaken settled => ?_, fun v scheduled => ?_, fun v scheduled => ?_, i75, fun v scheduled => ?_⟩
  · exact enable.trans (first taken)
  · exact enable.trans (later untaken settled)
  · exact level55.trans (by rw [State.rimLevel55, scheduled, Option.getD_some])
  · exact level65.trans (by rw [State.rimLevel65, scheduled, Option.getD_some])
  · exact serial.trans (by rw [State.serialLevel, scheduled, Option.getD_some])

/-! ### SIM -/

/-- The interrupt cells after a SIM, by the bits of A that let them change. -/
theorem simIrq_cases (q : Interrupts) (acc : Byte) :
    ((acc.getLsbD 3 = true → (simIrq q acc).m55 = acc.getLsbD 0 ∧ (simIrq q acc).m65 = acc.getLsbD 1 ∧
        (simIrq q acc).m75 = acc.getLsbD 2) ∧
      (acc.getLsbD 3 = false → (simIrq q acc).m55 = q.m55 ∧ (simIrq q acc).m65 = q.m65 ∧ (simIrq q acc).m75 = q.m75)) ∧
    (acc.getLsbD 4 = true → (simIrq q acc).i75 = false) ∧ (acc.getLsbD 4 = false → (simIrq q acc).i75 = q.i75) := by
  refine ⟨⟨fun load => ?_, fun keep => ?_⟩, fun clear => ?_, fun keep => ?_⟩
  · simp only [simIrq, load, if_true, and_self]
  · simp only [simIrq, keep, Bool.false_eq_true, if_false, and_self]
  · simp only [simIrq, clear, if_true]
  · simp only [simIrq, keep, Bool.false_eq_true, if_false]

/-- SOD after a SIM, by the bit of A that lets it change. -/
theorem simSod_cases (sod : Bool) (acc : Byte) :
    (acc.getLsbD 6 = true → simSod sod acc = acc.getLsbD 7) ∧ (acc.getLsbD 6 = false → simSod sod acc = sod) :=
  ⟨fun load => by simp only [simSod, load, if_true], fun keep => by simp only [simSod, keep, Bool.false_eq_true, if_false]⟩

/-- Settles O41: the masks and the latch as the bits of A say, then one write of SOD. -/
theorem setInterruptMasks : Obligations.SetInterruptMasks := by
  intro b s
  obtain ⟨⟨load, keep⟩, clear, latched⟩ := simIrq_cases s.irq s.regs.a
  exact ⟨rowIs_sim b, _, exec_sim s, State.stores_nothing rfl, rfl, rfl, load, keep, clear, latched,
    simSod_cases s.sod s.regs.a⟩

/-! ### The undefined first bytes and the state after reset -/

/-- Settles O42: each is one byte long and decodes to the instruction that is refused under that byte. -/
theorem undefinedBytesAreRefused : Obligations.UndefinedBytesAreRefused := by
  intro s rest x listed
  fin_cases listed <;> exact ⟨decode_of_length_one rfl rest, rfl⟩

/-- Settles O56: every cell is written out in the definition. -/
theorem resetState : Obligations.ResetState := ⟨rfl, rfl, rfl, rfl, rfl, rfl, rfl, rfl, rfl, rfl⟩

/-- Settles O58: memory is empty, and the standard priority lists the five sources. -/
theorem invariantHoldsAtReset : Obligations.InvariantHoldsAtReset := ⟨reset_mem_wf, rfl⟩

end Sys2Proof.Machine
end

section
/-! PROOFS. Which request a boundary takes (60_exceptions.md R286, R290), and a boundary without one (R282). -/

namespace Sys2Proof.Machine

/-- Whether a maskable request would be taken once the enable allows it: it is made and not masked (60_exceptions.md R286). -/
def State.requested (s : State) : Source → Bool
  | .trap => s.env.trapReq
  | .rst75 => s.irq.i75 && !s.irq.m75
  | .rst65 => s.now.pin65 && !s.irq.m65
  | .rst55 => s.now.pin55 && !s.irq.m55
  | .intr => s.now.intr

/-- Without the enable, or with one pending, nothing but TRAP is acceptable. -/
theorem State.acceptable_of_disabled {s : State} (h : s.irq.ie = false ∨ s.irq.eiPending = true) {src : Source}
    (maskable : src ≠ .trap) : s.acceptable src = false := by
  cases src with
  | trap => exact absurd rfl maskable
  | rst75 | rst65 | rst55 | intr => rcases h with h | h <;> simp [State.acceptable, h]

/-- With the enable and none pending, every request that is made and not masked is acceptable. -/
theorem State.acceptable_of_enabled {s : State} (ie : s.irq.ie = true) (settled : s.irq.eiPending = false) (src : Source) :
    s.acceptable src = s.requested src := by
  cases src <;> simp [State.acceptable, State.requested, ie, settled]

/-- A list is searched from its head. -/
theorem find?_cons_eq_ite (p : Source → Bool) (src : Source) (rest : List Source) :
    (src :: rest).find? p = if p src = true then some src else rest.find? p := by
  rw [List.find?_cons]
  cases p src <;> rfl

/-- Settles O51: TRAP first; then nothing, or the first maskable request made and not masked, as the enable says. -/
theorem highestPriorityRequestWins : Obligations.HighestPriorityRequestWins := by
  intro s priority
  simp only [State.winner, priority, find?_cons_eq_ite, List.find?_nil]
  refine if_congr Iff.rfl rfl ?_
  by_cases disabled : s.irq.ie = false ∨ s.irq.eiPending = true
  · simp [State.acceptable_of_disabled disabled, disabled]
  · obtain ⟨ie, settled⟩ : s.irq.ie = true ∧ s.irq.eiPending = false := by simpa using disabled
    rw [if_neg disabled]
    simp only [State.acceptable_of_enabled ie settled, State.requested, Bool.and_eq_true, Bool.not_eq_true']

/-! ### A boundary without a request -/

@[simp] theorem State.latchRequests_now (s : State) : s.latchRequests.now = s.now := rfl

/-- A quiet boundary takes no interrupt. -/
theorem State.winner_of_quiet {s : State} (quiet : s.Quiet) : s.latchRequests.winner = none := by
  obtain ⟨-, unacceptable⟩ := quiet
  exact List.find?_eq_none.mpr fun src _ => by simp [unacceptable src]

/-- No TRAP request is present or arrives at a quiet boundary. -/
theorem State.no_trap_of_quiet {s : State} (quiet : s.Quiet) : s.env.trapReq = false ∧ s.now.trap = false := by
  obtain ⟨-, unacceptable⟩ := quiet
  exact Bool.or_eq_false_iff.mp (unacceptable .trap)

/-- A step from a boundary: what the boundary answers, its inputs used up. -/
theorem step_of_boundary {s t : State} (h : s.latchRequests.boundary = .next t) : step s = .next t.advanceInputs := by
  simp only [step, h]

/-- Without RESET IN and without a winner, a halted machine stays as it is. -/
theorem boundary_of_halted {s : State} (noReset : s.now.resetIn = false) (winner : s.latchRequests.winner = none)
    (halted : s.halted = true) : s.latchRequests.boundary = .next s.latchRequests := by
  simp [State.boundary, noReset, winner, halted]

/-- Without RESET IN and without a winner, a machine that is not halted runs the instruction at pc. -/
theorem boundary_of_running {s : State} (noReset : s.now.resetIn = false) (winner : s.latchRequests.winner = none)
    (running : s.halted = false) : s.latchRequests.boundary = s.latchRequests.runInstruction := by
  simp [State.boundary, noReset, winner, running]

/-- Settles O39: HLT sets HALTED, and the quiet boundary of a halted machine only latches an edge and uses up the inputs. -/
theorem haltStops : Obligations.HaltStops := by
  intro b s
  refine ⟨rowIs_hlt b, ⟨_, exec_hlt s, rfl, State.stores_nothing rfl⟩, fun quiet halted => ?_⟩
  obtain ⟨-, trap⟩ := State.no_trap_of_quiet quiet
  have ⟨noReset, _⟩ := quiet
  refine ⟨_, step_of_boundary (boundary_of_halted noReset (State.winner_of_quiet quiet) halted), rfl, rfl, ?_⟩
  show { s.env with inputs := s.env.inputs.tail, trapReq := s.env.trapReq || s.now.trap } = _
  rw [trap, Bool.or_false]

end Sys2Proof.Machine
end

section
/-! PROOFS. One step of a machine that runs the instruction at pc (60_exceptions.md R282, R283; 30_encoding.md R93): what is
fetched from populated memory, and what the step does with it. -/

namespace Sys2Proof.Machine

/-! ### What stands at pc -/

/-- An instruction that memory holds at pc, by its length: it is decoded from the bytes there, and they are its encoding. -/
theorem State.holds_cases {s : State} {i : Instr} (holds : s.Holds i) :
    (opLength (s.byteAt s.pc) = 1 ∧ i = decodeOp (s.byteAt s.pc) 0 0 ∧ encode i = [s.byteAt s.pc]) ∨
    (opLength (s.byteAt s.pc) = 2 ∧ i = decodeOp (s.byteAt s.pc) (s.byteAt (s.pc + 1)) 0 ∧
      encode i = [s.byteAt s.pc, s.byteAt (s.pc + 1)]) ∨
    (opLength (s.byteAt s.pc) = 3 ∧ i = decodeOp (s.byteAt s.pc) (s.byteAt (s.pc + 1)) (s.byteAt (s.pc + 2)) ∧
      encode i = [s.byteAt s.pc, s.byteAt (s.pc + 1), s.byteAt (s.pc + 2)]) := by
  obtain ⟨⟨left, decodes⟩, -⟩ := holds
  rcases decode_cases decodes with ⟨op, len, bytes, rfl⟩ | ⟨op, b2, len, bytes, rfl⟩ | ⟨op, b2, b3, len, bytes, rfl⟩
  all_goals simp only [State.codeBytes, List.cons.injEq] at bytes
  · obtain ⟨rfl, -⟩ := bytes
    exact .inl ⟨len, rfl, (encode_decodeOp_one _ len).2⟩
  · obtain ⟨rfl, rfl, -⟩ := bytes
    exact .inr (.inl ⟨len, rfl, (encode_decodeOp_two _ _ len).2⟩)
  · obtain ⟨rfl, rfl, rfl, -⟩ := bytes
    exact .inr (.inr ⟨len, rfl, (encode_decodeOp_three _ _ _ len).2⟩)

/-- The state after a fetch that stood at `s`: these accesses seen, pc this much further. -/
def State.afterFetch (s : State) (events : List BusEvent) (length : Nat) : State :=
  { s with pc := s.pc + BitVec.ofNat 16 length, env.bus := events.reverse ++ s.env.bus }

theorem word_add_succ (a : Word) (n : Nat) : a + BitVec.ofNat 16 n + 1 = a + BitVec.ofNat 16 (n + 1) := by
  rw [BitVec.ofNat_add, BitVec.add_assoc]
  rfl

/-- An opcode fetch from populated memory. -/
theorem State.fetchOpcode_populated {s : State} (populated : s.Populated s.pc) :
    s.fetchOpcode = s.afterFetch [.fetch s.pc (s.byteAt s.pc)] 1 := by
  rw [State.fetchOpcode, State.noteFetch_populated _ _ populated]
  rfl

/-- The read of the next operand byte from populated memory. -/
theorem State.fetchOperand_afterFetch {s : State} {events : List BusEvent} {n : Nat}
    (populated : s.Populated (s.pc + BitVec.ofNat 16 n)) :
    (s.afterFetch events n).fetchOperand =
      s.afterFetch (events ++ [.memRead (s.pc + BitVec.ofNat 16 n) (s.byteAt (s.pc + BitVec.ofNat 16 n))]) (n + 1) := by
  have next := word_add_succ s.pc n
  rw [State.fetchOperand, State.noteRead_populated]
  · simp only [State.afterFetch, State.note, State.setPc, State.byteAt, next, List.reverse_append, List.reverse_singleton,
      List.singleton_append]
    rfl
  · exact populated

/-- The next operand byte passed over without a read. -/
theorem State.skipOperand_afterFetch {s : State} {events : List BusEvent} {n : Nat} :
    (s.afterFetch events n).skipOperand = s.afterFetch events (n + 1) := by
  have next := word_add_succ s.pc n
  simp only [State.skipOperand, State.setPc, State.afterFetch, next]

/-- The byte a populated fetch address yields. -/
theorem State.peek_afterFetch {s : State} {events : List BusEvent} {n : Nat}
    (populated : s.Populated (s.pc + BitVec.ofNat 16 n)) :
    (s.afterFetch events n).peek (s.afterFetch events n).pc = s.byteAt (s.pc + BitVec.ofNat 16 n) :=
  State.peek_populated _ _ populated

/-! ### The fetch, by the length of the instruction -/

theorem State.fetch_of_length_one {s : State} (len : opLength (s.peek s.pc) = 1) :
    s.fetch = (decodeOp (s.peek s.pc) 0 0, s.fetchOpcode) := by
  simp only [State.fetch, len]

theorem State.fetch_of_length_two {s : State} (len : opLength (s.peek s.pc) = 2) :
    s.fetch = (decodeOp (s.peek s.pc) (s.fetchOpcode.peek s.fetchOpcode.pc) 0, s.fetchOpcode.fetchOperand) := by
  simp only [State.fetch, len]

theorem State.fetch_of_length_three {s : State} {i : Instr} (len : opLength (s.peek s.pc) = 3)
    (dec : decodeOp (s.peek s.pc) (s.fetchOpcode.peek s.fetchOpcode.pc)
      (s.fetchOpcode.fetchOperand.peek s.fetchOpcode.fetchOperand.pc) = i) :
    s.fetch =
      (i, if s.fetchOpcode.fetchOperand.taken i then s.fetchOpcode.fetchOperand.fetchOperand
        else s.fetchOpcode.fetchOperand.skipOperand) := by
  simp only [State.fetch, len, dec]

/-- The fetch of an instruction that memory holds at pc: the instruction, its length added to pc, its accesses seen. -/
theorem State.fetch_of_holds {s : State} {i : Instr} (holds : s.Holds i) :
    s.fetch = (i, s.afterFetch (s.fetchEvents i) (encode i).length) := by
  have ⟨_, populated⟩ := holds
  have first : s.Populated s.pc := by
    have nonempty : 0 < (encode i).length := by
      rcases State.holds_cases holds with ⟨-, -, enc⟩ | ⟨-, -, enc⟩ | ⟨-, -, enc⟩ <;> simp [enc]
    simpa using populated 0 nonempty
  have opcode := State.peek_populated s s.pc first
  rcases State.holds_cases holds with ⟨len, hi, enc⟩ | ⟨len, hi, enc⟩ | ⟨len, hi, enc⟩
  · rw [State.fetch_of_length_one (by rw [opcode, len]), opcode, ← hi, State.fetchOpcode_populated first]
    simp only [State.fetchEvents, enc, List.length_singleton]
  · have second : s.Populated (s.pc + BitVec.ofNat 16 1) := populated 1 (by simp [enc])
    rw [State.fetch_of_length_two (by rw [opcode, len]), State.fetchOpcode_populated first, State.peek_afterFetch second,
      State.fetchOperand_afterFetch second, opcode]
    simp only [State.fetchEvents, enc, List.length_cons, List.length_nil]
    rw [hi]
    rfl
  · have second : s.Populated (s.pc + BitVec.ofNat 16 1) := populated 1 (by simp [enc])
    have third : s.Populated (s.pc + BitVec.ofNat 16 2) := populated 2 (by simp [enc])
    rw [State.fetch_of_length_three (i := i) (by rw [opcode, len]), State.fetchOpcode_populated first,
      State.fetchOperand_afterFetch second, State.fetchOperand_afterFetch third, State.skipOperand_afterFetch]
    · simp only [State.fetchEvents, enc, List.length_cons, List.length_nil]
      show (i, if s.taken i = true then _ else _) = _
      split <;> rfl
    · rw [State.fetchOpcode_populated first, State.fetchOperand_afterFetch second, State.peek_afterFetch second,
        State.peek_afterFetch third, opcode]
      exact hi.symm

/-! ### The step -/

/-- The requests that are latched change neither the program nor where it stands. -/
theorem State.fetch_latchRequests {s : State} {i : Instr} (holds : s.Holds i) :
    s.latchRequests.fetch = (i, s.fetched i) :=
  State.fetch_of_holds (s := s.latchRequests) holds

theorem isEiOrDi_iff (i : Instr) : isEiOrDi i = true ↔ i = .ei ∨ i = .di := by
  unfold isEiOrDi
  split
  · simp
  · simp
  · next notEi notDi => simpa using ⟨notEi, notDi⟩

/-- The delayed enable and the use of the inputs are what `State.finished` says. -/
theorem State.advanceInputs_settleEnable (s t : State) (i : Instr) :
    (t.settleEnable s.irq.eiPending i).advanceInputs = s.finished i t := by
  have condition : (s.irq.eiPending && !isEiOrDi i) = true ↔ s.irq.eiPending = true ∧ i ≠ .ei ∧ i ≠ .di := by
    rw [Bool.and_eq_true, Bool.not_eq_true', ← Bool.not_eq_true, isEiOrDi_iff, not_or]
  unfold State.settleEnable State.finished
  by_cases pending : s.irq.eiPending = true ∧ i ≠ .ei ∧ i ≠ .di
  · rw [if_pos (condition.mpr pending), if_pos pending]
    rfl
  · rw [if_neg (fun h => pending (condition.mp h)), if_neg pending]
    rfl

/-- Settles O48: a quiet boundary runs the instruction, which is fetched as memory holds it. -/
theorem stepRunsDecodedInstruction : Obligations.StepRunsDecodedInstruction := by
  intro s i quiet running holds
  have ⟨noReset, _⟩ := quiet
  rw [step, boundary_of_running noReset (State.winner_of_quiet quiet) running, State.runInstruction, State.fetch_latchRequests holds]
  cases exec i (s.fetched i) with
  | next t => exact congrArg Host.Outcome.next (s.advanceInputs_settleEnable t i)
  | fault f => rfl
  | refused r => rfl

/-- All that a step that runs `i` can answer: what the rule answers, finished. -/
theorem step_next_of_holds {s t : State} {i : Instr} (quiet : s.Quiet) (running : s.halted = false) (holds : s.Holds i)
    (h : step s = .next t) : ∃ u, exec i (s.fetched i) = .next u ∧ t = s.finished i u := by
  rw [stepRunsDecodedInstruction s i quiet running holds] at h
  split at h
  · next u rule => cases h; exact ⟨u, rule, rfl⟩
  · cases h
  · cases h

/-- A step that runs `i` is refused where the rule is. -/
theorem step_refused_of_holds {s : State} {i : Instr} {r : Refusal} (quiet : s.Quiet) (running : s.halted = false)
    (holds : s.Holds i) (h : step s = .refused r) : exec i (s.fetched i) = .refused r := by
  rw [stepRunsDecodedInstruction s i quiet running holds] at h
  split at h
  · cases h
  · cases h
  · next rule => cases h; exact rule

/-! ### NOP -/

/-- The three fields of a first byte that are all 0 make 0. -/
theorem eq_zero_of_fields : ∀ op : Byte, (op.extractLsb' 6 2).toNat = 0 → (fieldSSS op).toNat = 0 →
    (fieldDDD op).toNat = 0 → op = 0 := by decide +kernel

/-- Among the four quadrants of the decoder only the first row of the first one is NOP. -/
theorem eq_zero_of_decodeOp_nop {op b2 b3 : Byte} (h : decodeOp op b2 b3 = .nop) : op = 0 := by
  unfold decodeOp at h
  split at h
  case h_1 quadrant =>
    unfold decodeQuadrant0 at h
    split at h
    case h_1 sss ddd => exact eq_zero_of_fields op quadrant sss ddd
    all_goals (repeat' split at h) <;> cases h
  case h_2 => unfold decodeQuadrant1 at h; split at h <;> cases h
  case h_3 => unfold decodeQuadrant2 at h; split at h <;> cases h
  case h_4 => unfold decodeQuadrant3 at h; split at h <;> cases h

/-- Memory whose byte at pc is 0 holds a NOP there. -/
theorem State.holds_nop {s : State} (populated : s.Populated s.pc) (zero : s.byteAt s.pc = 0) : s.Holds .nop := by
  refine ⟨⟨[s.byteAt (s.pc + 1), s.byteAt (s.pc + 2)], ?_⟩, fun k hk => ?_⟩
  · rw [State.codeBytes, zero]
    rfl
  · obtain rfl : k = 0 := Nat.lt_one_iff.mp hk
    simpa using populated

/-- Settles O38: the rule does nothing, so the step only fetches and finishes. -/
theorem noOperation : Obligations.NoOperation := by
  refine ⟨fun b s => ⟨rowIs_nop b, exec_nop s⟩, fun s quiet running populated zero => ?_, fun _ _ _ => eq_zero_of_decodeOp_nop⟩
  rw [stepRunsDecodedInstruction s .nop quiet running (State.holds_nop populated zero)]
  rfl

/-! ### The instruction after an EI -/

/-- With an enable pending, and neither TRAP nor RESET IN, the boundary is quiet whatever else requests. -/
theorem State.quiet_of_pending {s : State} (pending : s.irq.eiPending = true) (noReset : s.now.resetIn = false)
    (absent : s.env.trapReq = false) (noTrap : s.now.trap = false) : s.Quiet := by
  refine ⟨noReset, fun src => ?_⟩
  by_cases trap : src = .trap
  · rw [trap]
    show (s.env.trapReq || s.now.trap) = false
    rw [absent, noTrap]
    rfl
  · exact State.acceptable_of_disabled (s := s.latchRequests) (.inr pending) trap

/-- Settles O50: the step is the instruction's, finished with the enable unless the instruction is EI or DI, which set
EI_PENDING and clear it. -/
theorem enableTakesEffectAfterNextInstruction : Obligations.EnableTakesEffectAfterNextInstruction := by
  intro s i pending noReset absent noTrap running holds
  have quiet := State.quiet_of_pending pending noReset absent noTrap
  refine ⟨fun r => step_refused_of_holds quiet running holds, fun t h => ?_⟩
  obtain ⟨u, rule, rfl⟩ := step_next_of_holds quiet running holds h
  refine ⟨⟨u, rule, rfl⟩, fun notEi notDi => ?other, ?ei, ?di⟩
  case other =>
    have enabled : (s.finished i u).irq = { u.irq with ie := true, eiPending := false } := if_pos ⟨pending, notEi, notDi⟩
    exact ⟨by rw [enabled], by rw [enabled]⟩
  case ei =>
    rintro rfl
    have kept : (s.finished .ei u).irq = u.irq := if_neg (by simp)
    rw [kept]
    cases rule
    exact ⟨rfl, rfl⟩
  case di =>
    rintro rfl
    have kept : (s.finished .di u).irq = u.irq := if_neg (by simp)
    rw [kept]
    cases rule
    exact ⟨rfl, rfl⟩

end Sys2Proof.Machine
end

section
/-! PROOFS. Which flags an instruction can change (10_state.md R30), and which instructions complete (30_encoding.md R118). -/

namespace Sys2Proof.Machine

/-! ### Flags -/

/-- The new flags differ from the old ones no more than this kind of instruction allows. -/
def FlagWrite.Allows (kind : FlagWrite) (old new : Flags) : Prop :=
  match kind with
  | .all => True
  | .allButCy => new.cy = old.cy
  | .onlyCy => new = { old with cy := new.cy }
  | .none => new = old

/-- No rule changes a flag that its kind does not allow. -/
theorem flags_of_exec {i : Instr} {s t : State} (h : exec i s = .next t) : (flagWrite i).Allows s.flags t.flags := by
  by_cases branch : inBranchGroup i = true
  · obtain ⟨u, completes, keeps⟩ := exec_branch branch s
    obtain rfl : u = t := by rw [completes] at h; cases h; rfl
    cases branchKind_of_inBranchGroup branch with
    | condJump cond addr => cases cond <;> exact keeps
    | condCall cond addr => cases cond <;> exact keeps
    | condRet cond => cases cond <;> exact keeps
    | jmp _ | call _ | ret | rst _ | pchl => exact keeps
  · cases i with
    | addR _ | addM | adi _ | adcR _ | adcM | aci _ | subR _ | subM | sui _ | sbbR _ | sbbM | sbi _ | daa | anaR _ | anaM
    | ani _ | xraR _ | xraM | xri _ | oraR _ | oraM | ori _ | cmpR _ | cmpM | cpi _ | popPsw => trivial
    | inrR _ | dcrR _ => cases h; rfl
    | inrM | dcrM => cases h; rw [State.stepM_afterReadM_flags]; rfl
    | dad _ => cases h; rfl
    | rlc | rrc | ral | rar | cmc | stc => cases h; rfl
    | movRR _ _ | mviR _ _ | cma => cases h; exact State.setReg_flags ..
    | movRM _ | lda _ | ldax _ => cases h; exact (State.setReg_flags ..).trans (State.noteRead_flags ..)
    | movMR _ | mviM _ | sta _ | stax _ => cases h; exact State.writeByte_flags ..
    | lxi _ _ | inx _ | dcx _ => cases h; exact State.setPair_flags ..
    | lhld _ | shld _ | xchg | push _ | pushPsw | pop _ | xthl => cases h; simp [FlagWrite.Allows, flagWrite, State.readStack]
    | sphl | inPort _ | outPort _ | ei | di | hlt | nop | rim | sim => cases h; rfl
    | undef08 | undef10 | undef18 | undef28 | undef38 | undefCB | undefD9 | undefDD | undefED | undefFD => cases h
    | _ => exact absurd rfl branch

/-- Settles O43: each kind of instruction, by what it allows. -/
theorem flagsChangeOnlyAsListed : Obligations.FlagsChangeOnlyAsListed := by
  intro i s t h
  have allowed := flags_of_exec h
  refine ⟨fun kind => ?_, fun kind => ?_, fun kind => ?_⟩ <;> rw [kind] at allowed <;> exact allowed

/-! ### Which instructions complete -/

/-- The ten first bytes that no source gives a meaning (30_encoding.md R118). -/
def undefinedOps : List Byte := [0x08, 0x10, 0x18, 0x28, 0x38, 0xCB, 0xD9, 0xDD, 0xED, 0xFD]

/-- Every rule completes, but those of the ten undefined first bytes, which are refused by that byte. -/
theorem exec_outcome (i : Instr) (s : State) :
    (∃ t, exec i s = .next t) ∨ ∃ op ∈ undefinedOps, encode i = [op] ∧ exec i s = .refused (.undefinedOpcode op) := by
  cases i with
  | undef08 | undef10 | undef18 | undef28 | undef38 | undefCB | undefD9 | undefDD | undefED | undefFD =>
    exact .inr ⟨_, by decide, rfl, rfl⟩
  | _ => exact .inl ⟨_, rfl⟩

end Sys2Proof.Machine
end

section
/-! PROOFS. What the environment sees of a run of the machine and what memory keeps through it: bus accesses one after another,
RAM alone written, SOD and the masks left alone but by SIM and RESET IN (20_memory.md sections 1 and 3, 10_state.md section 5). -/

namespace Sys2Proof.Machine

/-! ### What every action keeps -/

/-- The platform is the same, memory keeps its canonical form, and what is not RAM keeps its content. -/
structure State.Evolves (s t : State) : Prop where
  params : t.env.params = s.env.params
  wf : s.mem.wf = true → t.mem.wf = true
  nonRam : ∀ a, ¬ s.IsRam a → t.byteAt a = s.byteAt a

theorem State.Evolves.of_same {s t : State} (mem : t.mem = s.mem) (params : t.env.params = s.env.params) : s.Evolves t where
  params := params
  wf hw := by rwa [mem]
  nonRam a _ := by rw [State.byteAt, State.byteAt, mem]

theorem State.Evolves.trans {s u t : State} (first : s.Evolves u) (later : u.Evolves t) : s.Evolves t where
  params := later.params.trans first.params
  wf hw := later.wf (first.wf hw)
  nonRam a other := by
    have still : ¬ u.IsRam a := by rwa [State.IsRam, State.kindAt, first.params]
    rw [later.nonRam a still, first.nonRam a other]

/-- A write evolves memory: RAM alone takes the byte. -/
theorem State.evolves_writeByte (s : State) (a : Word) (v : Byte) : s.Evolves (s.writeByte a v) where
  params := s.writeByte_env_params a v
  wf hw := s.wf_writeByte a v hw
  nonRam b other := by
    by_cases here : b = a
    · exact s.byteAt_writeByte_not_ram a b v (here ▸ other)
    · exact s.byteAt_writeByte_other a b v here

/-! ### Bus accesses, one after another -/

/-- These accesses are made, the first made standing first; SOD and the masks stay as they are. -/
structure State.Performs (s t : State) (events : List BusEvent) : Prop extends s.Evolves t where
  bus : t.env.bus = events.reverse ++ s.env.bus
  accesses : ∀ e ∈ events, e.isAccess = true
  m55 : t.irq.m55 = s.irq.m55
  m65 : t.irq.m65 = s.irq.m65
  m75 : t.irq.m75 = s.irq.m75
  sod : t.sod = s.sod

theorem State.Performs.trans {s u t : State} {early late : List BusEvent} (first : s.Performs u early)
    (later : u.Performs t late) : s.Performs t (early ++ late) where
  toEvolves := first.toEvolves.trans later.toEvolves
  bus := by rw [later.bus, first.bus, List.reverse_append, List.append_assoc]
  accesses e he := (List.mem_append.mp he).elim (first.accesses e) (later.accesses e)
  m55 := later.m55.trans first.m55
  m65 := later.m65.trans first.m65
  m75 := later.m75.trans first.m75
  sod := later.sod.trans first.sod

/-- No access is made, and memory, SOD and the masks stay as they are. -/
structure State.Silent (s t : State) : Prop where
  mem : t.mem = s.mem
  params : t.env.params = s.env.params
  bus : t.env.bus = s.env.bus
  m55 : t.irq.m55 = s.irq.m55
  m65 : t.irq.m65 = s.irq.m65
  m75 : t.irq.m75 = s.irq.m75
  sod : t.sod = s.sod

theorem State.Silent.performs {s t : State} (silent : s.Silent t) : s.Performs t [] where
  toEvolves := .of_same silent.mem silent.params
  bus := silent.bus
  accesses := by simp
  m55 := silent.m55
  m65 := silent.m65
  m75 := silent.m75
  sod := silent.sod

theorem State.Silent.trans {s u t : State} (first : s.Silent u) (later : u.Silent t) : s.Silent t where
  mem := later.mem.trans first.mem
  params := later.params.trans first.params
  bus := later.bus.trans first.bus
  m55 := later.m55.trans first.m55
  m65 := later.m65.trans first.m65
  m75 := later.m75.trans first.m75
  sod := later.sod.trans first.sod

theorem State.silent_refl (s : State) : s.Silent s := ⟨rfl, rfl, rfl, rfl, rfl, rfl, rfl⟩

theorem State.silent_setReg (s : State) (r : Reg) (v : Byte) : s.Silent (s.setReg r v) := by
  cases r <;> exact ⟨rfl, rfl, rfl, rfl, rfl, rfl, rfl⟩

theorem State.silent_setPair (s : State) (p : Pair) (v : Word) : s.Silent (s.setPair p v) := by
  cases p <;> exact ⟨rfl, rfl, rfl, rfl, rfl, rfl, rfl⟩

theorem State.silent_setFlags (s : State) (f : Flags) : s.Silent (s.setFlags f) := ⟨rfl, rfl, rfl, rfl, rfl, rfl, rfl⟩

theorem State.silent_setCy (s : State) (b : Bool) : s.Silent (s.setCy b) := ⟨rfl, rfl, rfl, rfl, rfl, rfl, rfl⟩

theorem State.silent_countDraw (s : State) : s.Silent s.countDraw := ⟨rfl, rfl, rfl, rfl, rfl, rfl, rfl⟩

theorem State.silent_setSp (s : State) (v : Word) : s.Silent (s.setSp v) := ⟨rfl, rfl, rfl, rfl, rfl, rfl, rfl⟩

theorem State.silent_setPc (s : State) (v : Word) : s.Silent (s.setPc v) := ⟨rfl, rfl, rfl, rfl, rfl, rfl, rfl⟩

theorem State.silent_rotateA (s : State) (r : Rotated) : s.Silent (s.rotateA r) := ⟨rfl, rfl, rfl, rfl, rfl, rfl, rfl⟩

/-- Silent actions after some accesses make no more of them. -/
theorem State.Performs.silent {s u t : State} {events : List BusEvent} (first : s.Performs u events) (later : u.Silent t) :
    s.Performs t events := by
  simpa using first.trans later.performs

/-! ### The accesses of the shared operations -/

theorem State.performs_writeByte (s : State) (a : Word) (v : Byte) : s.Performs (s.writeByte a v) [.memWrite a v] where
  toEvolves := s.evolves_writeByte a v
  bus := s.writeByte_env_bus a v
  accesses := by simp [BusEvent.isAccess]
  m55 := by rw [State.writeByte_irq]
  m65 := by rw [State.writeByte_irq]
  m75 := by rw [State.writeByte_irq]
  sod := s.writeByte_sod a v

theorem State.performs_noteRead (s : State) (a : Word) : s.Performs (s.noteRead a) [.memRead a (s.peek a)] where
  toEvolves := .of_same (s.noteRead_mem a) (s.noteRead_env_params a)
  bus := s.noteRead_env_bus a
  accesses := by simp [BusEvent.isAccess]
  m55 := by rw [State.noteRead_irq]
  m65 := by rw [State.noteRead_irq]
  m75 := by rw [State.noteRead_irq]
  sod := s.noteRead_sod a

theorem State.performs_noteFetch (s : State) (a : Word) : s.Performs (s.noteFetch a) [.fetch a (s.peek a)] where
  toEvolves := .of_same (s.noteFetch_mem a) (s.noteFetch_env_params a)
  bus := s.noteFetch_env_bus a
  accesses := by simp [BusEvent.isAccess]
  m55 := by rw [State.noteFetch_irq]
  m65 := by rw [State.noteFetch_irq]
  m75 := by rw [State.noteFetch_irq]
  sod := s.noteFetch_sod a

theorem State.performs_note (s : State) (e : BusEvent) (access : e.isAccess = true) : s.Performs (s.note e) [e] where
  toEvolves := .of_same rfl rfl
  bus := rfl
  accesses := by simpa using access
  m55 := rfl
  m65 := rfl
  m75 := rfl
  sod := rfl

/-- A push makes two writes. -/
theorem State.performs_push16 (s : State) (v : Word) :
    s.Performs (s.push16 v) [.memWrite (s.sp - 1) (highByte v), .memWrite (s.sp - 2) (lowByte v)] :=
  ((s.performs_writeByte _ _).trans (State.performs_writeByte _ _ _)).silent (State.silent_setSp _ _)

/-- So does a call. -/
theorem State.performs_callTo (s : State) (target : Word) :
    s.Performs (s.callTo target) [.memWrite (s.sp - 1) (highByte s.pc), .memWrite (s.sp - 2) (lowByte s.pc)] :=
  (s.performs_push16 s.pc).silent (State.silent_setPc _ _)

/-- The stack reads of a pop. -/
theorem State.performs_readStack (s : State) :
    s.Performs s.readStack [.memRead s.sp s.popLow, .memRead (s.sp + 1) s.popHigh] :=
  (s.performs_noteRead s.sp).trans (State.performs_noteRead _ _)

/-- A pop makes them and moves SP. -/
theorem State.performs_dropStack (s : State) :
    s.Performs s.dropStack [.memRead s.sp s.popLow, .memRead (s.sp + 1) s.popHigh] :=
  s.performs_readStack.silent (State.silent_setSp _ _)

/-- So does a return. -/
theorem State.performs_return16 (s : State) :
    s.Performs s.return16 [.memRead s.sp s.popLow, .memRead (s.sp + 1) s.popHigh] :=
  s.performs_dropStack.silent (State.silent_setPc _ _)

/-! ### The rules -/

/-- The accesses of a rule, after those of the fetch, are the machine cycles of the instruction in a state with these flags. -/
def FollowsRow (i : Instr) (f : Flags) (events : List BusEvent) : Prop :=
  ∀ s : State, s.flags = f → followsCycles (s.fetchEvents i ++ events) (machineCycles i (s.taken i)) = true

theorem fetchEvents_of_length_one {s : State} {i : Instr} (len : (encode i).length = 1) :
    s.fetchEvents i = [.fetch s.pc (s.byteAt s.pc)] := by
  simp only [State.fetchEvents, len]

theorem fetchEvents_of_length_three {s : State} {i : Instr} (len : (encode i).length = 3) :
    s.fetchEvents i = if s.taken i then
      [.fetch s.pc (s.byteAt s.pc), .memRead (s.pc + 1) (s.byteAt (s.pc + 1)), .memRead (s.pc + 2) (s.byteAt (s.pc + 2))]
    else [.fetch s.pc (s.byteAt s.pc), .memRead (s.pc + 1) (s.byteAt (s.pc + 1))] := by
  simp only [State.fetchEvents, len]

/-- What the row of an instruction says of its length and its machine cycles. -/
theorem RowIs.length_and_cycles {i : Instr} {b : Bool} {bytes : List Nat} {cycles : List Cycle} {states : Nat}
    (row : RowIs i b bytes cycles states) : (encode i).length = bytes.length ∧ machineCycles i b = cycles := by
  obtain ⟨enc, -, hcycles, -⟩ := row
  exact ⟨by rw [← enc, List.length_map], hcycles⟩

/-- A condition is tested on the flags. -/
theorem State.taken_of_branchCond {i : Instr} {cond : Cond} (h : branchCond i = some cond) (s : State) :
    s.taken i = s.flags.holds cond := by
  rw [State.taken, h]

/-- A conditional jump makes no access of its own. -/
theorem condJump_performs (cond : Cond) (addr : Word) (s : State) :
    s.Performs (s.jumpIf cond addr) [] ∧ FollowsRow (cond.jump addr) s.flags [] := by
  refine ⟨State.Silent.performs (by rw [State.jumpIf_eq]; exact ⟨rfl, rfl, rfl, rfl, rfl, rfl, rfl⟩), fun u _ => ?_⟩
  obtain ⟨len, cycles⟩ := (rowIs_condJump cond addr (u.taken (cond.jump addr))).length_and_cycles
  rw [fetchEvents_of_length_three len, cycles]
  split <;> rfl

/-- A conditional call makes those of a call, or none. -/
theorem condCall_performs (cond : Cond) (addr : Word) (s : State) :
    ∃ events, s.Performs (s.callIf cond addr) events ∧ FollowsRow (cond.call addr) s.flags events := by
  have taken := State.taken_of_branchCond (branchCond_condCall cond addr)
  unfold State.callIf
  split
  · next holds =>
    refine ⟨_, s.performs_callTo addr, fun u same => ?_⟩
    obtain ⟨len, cycles⟩ := (rowIs_condCall cond addr true).length_and_cycles
    rw [fetchEvents_of_length_three len, taken, same, holds, cycles]
    rfl
  · next fails =>
    refine ⟨[], s.silent_refl.performs, fun u same => ?_⟩
    obtain ⟨len, cycles⟩ := (rowIs_condCall cond addr false).length_and_cycles
    rw [fetchEvents_of_length_three len, taken, same, Bool.eq_false_of_not_eq_true fails, cycles]
    rfl

/-- A conditional return makes those of a return, or none. -/
theorem condRet_performs (cond : Cond) (s : State) :
    ∃ events, s.Performs (s.returnIf cond) events ∧ FollowsRow cond.ret s.flags events := by
  have taken := State.taken_of_branchCond (branchCond_condRet cond)
  unfold State.returnIf
  split
  · next holds =>
    refine ⟨_, s.performs_return16, fun u same => ?_⟩
    obtain ⟨len, cycles⟩ := (rowIs_condRet cond true).length_and_cycles
    rw [fetchEvents_of_length_one len, taken, same, holds, cycles]
    rfl
  · next fails =>
    refine ⟨[], s.silent_refl.performs, fun u same => ?_⟩
    obtain ⟨len, cycles⟩ := (rowIs_condRet cond false).length_and_cycles
    rw [fetchEvents_of_length_one len, taken, same, Bool.eq_false_of_not_eq_true fails, cycles]
    rfl

/-- Every rule but SIM's makes the accesses of its machine cycles, and changes neither SOD nor the masks. -/
theorem exec_performs {i : Instr} {s t : State} (h : exec i s = .next t) (notSim : i ≠ .sim) :
    ∃ events, s.Performs t events ∧ FollowsRow i s.flags events := by
  by_cases branch : inBranchGroup i = true
  · cases branchKind_of_inBranchGroup branch with
    | jmp addr => cases h; exact ⟨[], (s.silent_setPc addr).performs, fun _ _ => rfl⟩
    | condJump cond addr => rw [exec_condJump] at h; cases h; exact ⟨[], condJump_performs cond addr s⟩
    | call addr => cases h; exact ⟨_, s.performs_callTo addr, fun _ _ => rfl⟩
    | condCall cond addr => rw [exec_condCall] at h; cases h; exact condCall_performs cond addr s
    | ret => cases h; exact ⟨_, s.performs_return16, fun _ _ => rfl⟩
    | condRet cond => rw [exec_condRet] at h; cases h; exact condRet_performs cond s
    | rst n => cases h; exact ⟨_, s.performs_callTo _, fun _ _ => rfl⟩
    | pchl => cases h; exact ⟨[], (s.silent_setPc _).performs, fun _ _ => rfl⟩
  · cases i with
    | addR _ | adi _ | adcR _ | aci _ | subR _ | sui _ | sbbR _ | sbi _ | daa | anaR _ | ani _ | xraR _ | xri _ | oraR _
    | ori _ | inrR _ | dcrR _ =>
      cases h; exact ⟨[], ((s.silent_setReg _ _).trans (State.silent_setFlags _ _)).performs, fun _ _ => rfl⟩
    | cmpR _ | cpi _ => cases h; exact ⟨[], (s.silent_setFlags _).performs, fun _ _ => rfl⟩
    | rlc | rrc | ral | rar => cases h; exact ⟨[], (s.silent_rotateA _).performs, fun _ _ => rfl⟩
    | cmc | stc => cases h; exact ⟨[], (s.silent_setCy _).performs, fun _ _ => rfl⟩
    | movRR _ _ | mviR _ _ | cma => cases h; exact ⟨[], (s.silent_setReg _ _).performs, fun _ _ => rfl⟩
    | lxi _ _ | inx _ | dcx _ => cases h; exact ⟨[], (s.silent_setPair _ _).performs, fun _ _ => rfl⟩
    | dad _ => cases h; exact ⟨[], ((s.silent_setPair _ _).trans (State.silent_setCy _ _)).performs, fun _ _ => rfl⟩
    | xchg => cases h; exact ⟨[], ((s.silent_setPair _ _).trans (State.silent_setPair _ _ _)).performs, fun _ _ => rfl⟩
    | sphl => cases h; exact ⟨[], (s.silent_setSp _).performs, fun _ _ => rfl⟩
    | ei | di | hlt | nop | rim => cases h; exact ⟨[], State.Silent.performs ⟨rfl, rfl, rfl, rfl, rfl, rfl, rfl⟩, fun _ _ => rfl⟩
    | addM | adcM | subM | sbbM | anaM | xraM | oraM =>
      cases h
      exact ⟨_, (s.performs_noteRead s.addrM).silent ((State.silent_setReg _ _ _).trans (State.silent_setFlags _ _)),
        fun _ _ => rfl⟩
    | cmpM => cases h; exact ⟨_, (s.performs_noteRead s.addrM).silent (State.silent_setFlags _ _), fun _ _ => rfl⟩
    | movRM _ | lda _ | ldax _ =>
      cases h; exact ⟨_, (s.performs_noteRead _).silent (State.silent_setReg _ _ _), fun _ _ => rfl⟩
    | movMR _ | mviM _ | sta _ | stax _ => cases h; exact ⟨_, s.performs_writeByte _ _, fun _ _ => rfl⟩
    | inrM | dcrM =>
      cases h
      exact ⟨_, ((s.performs_noteRead s.addrM).trans (State.performs_writeByte _ _ _)).silent (State.silent_setFlags _ _),
        fun _ _ => rfl⟩
    | lhld addr =>
      cases h
      exact ⟨_, ((s.performs_noteRead addr).trans (State.performs_noteRead _ (addr + 1))).silent (State.silent_setPair _ _ _),
        fun _ _ => rfl⟩
    | shld addr =>
      cases h
      exact ⟨_, (s.performs_writeByte addr s.regs.l).trans (State.performs_writeByte _ (addr + 1) s.regs.h), fun _ _ => rfl⟩
    | push _ => cases h; exact ⟨_, s.performs_push16 _, fun _ _ => rfl⟩
    | pushPsw => cases h; exact ⟨_, (s.performs_push16 _).silent (State.silent_countDraw _), fun _ _ => rfl⟩
    | pop _ => cases h; exact ⟨_, s.performs_dropStack.silent (State.silent_setPair _ _ _), fun _ _ => rfl⟩
    | popPsw =>
      cases h
      exact ⟨_, s.performs_dropStack.silent ((State.silent_setFlags _ _).trans (State.silent_setReg _ _ _)), fun _ _ => rfl⟩
    | xthl =>
      cases h
      exact ⟨_, ((s.performs_readStack.trans (State.performs_writeByte _ s.sp s.regs.l)).trans
        (State.performs_writeByte _ (s.sp + 1) s.regs.h)).silent (State.silent_setPair _ _ _), fun _ _ => rfl⟩
    | inPort port =>
      cases h
      exact ⟨_, (s.performs_note _ rfl).silent ((State.silent_countDraw _).trans (State.silent_setReg _ _ _)), fun _ _ => rfl⟩
    | outPort _ => cases h; exact ⟨_, s.performs_note _ rfl, fun _ _ => rfl⟩
    | sim => exact absurd rfl notSim
    | undef08 | undef10 | undef18 | undef28 | undef38 | undefCB | undefD9 | undefDD | undefED | undefFD => cases h
    | _ => exact absurd rfl branch

end Sys2Proof.Machine
end

section
/-! PROOFS. What a step of the whole machine can do to memory, the bus, SOD and the masks (60_exceptions.md R282): reset, a SIM,
or accesses that leave SOD and the masks alone. -/

namespace Sys2Proof.Machine

/-! ### The serial output -/

/-- The environment sees one serial output event, with the new level, where SOD changes, and none where it does not. -/
def State.SerialSeen (s t : State) : Prop :=
  ∃ events : List BusEvent, t.env.bus = events ++ s.env.bus ∧
    events.filterMap BusEvent.serialLevel = if t.sod = s.sod then [] else [t.sod]

/-- A bus access is no serial output event. -/
theorem filterMap_serialLevel_of_accesses {events : List BusEvent} (accesses : ∀ e ∈ events, e.isAccess = true) :
    events.filterMap BusEvent.serialLevel = [] := by
  refine List.filterMap_eq_nil_iff.mpr fun e he => ?_
  cases e with
  | serialOut level => exact absurd (accesses _ he) Bool.false_ne_true
  | _ => rfl

/-- Accesses before a change of SOD, or before none, leave it as seen. -/
theorem State.Performs.then_serialSeen {s u t : State} {early : List BusEvent} (first : s.Performs u early)
    (later : u.SerialSeen t) : s.SerialSeen t := by
  obtain ⟨events, bus, seen⟩ := later
  refine ⟨events ++ early.reverse, by rw [bus, first.bus, List.append_assoc], ?_⟩
  have silent : early.reverse.filterMap BusEvent.serialLevel = [] :=
    filterMap_serialLevel_of_accesses fun e he => first.accesses e (List.mem_reverse.mp he)
  rw [List.filterMap_append, silent, List.append_nil, seen, first.sod]

theorem State.SerialSeen.refl (s : State) : s.SerialSeen s := ⟨[], rfl, by simp⟩

theorem State.Performs.serialSeen {s t : State} {events : List BusEvent} (performs : s.Performs t events) : s.SerialSeen t :=
  performs.then_serialSeen (.refl t)

/-- What is seen of SOD is said of the bus log and SOD alone. -/
theorem State.SerialSeen.of_same {s u t : State} (seen : s.SerialSeen u) (bus : t.env.bus = u.env.bus) (sod : t.sod = u.sod) :
    s.SerialSeen t := by
  obtain ⟨events, hbus, hseen⟩ := seen
  exact ⟨events, bus.trans hbus, by rw [sod, hseen]⟩

/-- Driving SOD is seen. -/
theorem State.serialSeen_driveSod (s : State) (level : Bool) : s.SerialSeen (s.driveSod level) := by
  by_cases same : level = s.sod
  · exact ⟨[], by rw [State.driveSod_env_bus, if_pos same]; rfl, by rw [State.driveSod_sod, if_pos same]; rfl⟩
  · exact ⟨[.serialOut level], by rw [State.driveSod_env_bus, if_neg same]; rfl,
      by rw [State.driveSod_sod, if_neg same]; rfl⟩

/-! ### The parts of a step -/

theorem State.silent_latchRequests (s : State) : s.Silent s.latchRequests := ⟨rfl, rfl, rfl, rfl, rfl, rfl, rfl⟩

theorem State.silent_advanceInputs (s : State) : s.Silent s.advanceInputs := ⟨rfl, rfl, rfl, rfl, rfl, rfl, rfl⟩

theorem State.silent_settleEnable (s : State) (pend : Bool) (i : Instr) : s.Silent (s.settleEnable pend i) := by
  rcases s.settleEnable_cases pend i with ⟨same, -⟩ | ⟨-, -, enabled⟩
  · rw [same]; exact s.silent_refl
  · rw [enabled]; exact ⟨rfl, rfl, rfl, rfl, rfl, rfl, rfl⟩

theorem State.silent_beginEntry (s : State) (src : Source) : s.Silent (s.beginEntry src) := by
  cases src <;> exact ⟨rfl, rfl, rfl, rfl, rfl, rfl, rfl⟩

theorem State.performs_fetchOpcode (s : State) : s.Performs s.fetchOpcode [.fetch s.pc (s.peek s.pc)] :=
  (s.performs_noteFetch s.pc).silent (State.silent_setPc _ _)

theorem State.performs_fetchOperand (s : State) : s.Performs s.fetchOperand [.memRead s.pc (s.peek s.pc)] :=
  (s.performs_noteRead s.pc).silent (State.silent_setPc _ _)

/-- The fetch, also from memory that is not populated, makes accesses only. -/
theorem State.performs_fetch (s : State) : ∃ events, s.Performs s.fetch.2 events := by
  rcases opLength_cases (s.peek s.pc) with len | len | len
  · rw [State.fetch_of_length_one len]
    exact ⟨_, s.performs_fetchOpcode⟩
  · rw [State.fetch_of_length_two len]
    exact ⟨_, s.performs_fetchOpcode.trans (State.performs_fetchOperand _)⟩
  · rw [State.fetch_of_length_three len rfl]
    have twice := s.performs_fetchOpcode.trans (State.performs_fetchOperand _)
    dsimp only
    split
    · exact ⟨_, twice.trans (State.performs_fetchOperand _)⟩
    · exact ⟨_, twice.silent (State.silent_setPc _ _)⟩

/-- Taking an interrupt, vectored or acknowledged, makes accesses only. -/
theorem State.performs_takeInterrupt {s t : State} {src : Source} (h : s.takeInterrupt src = .next t) :
    ∃ events, s.Performs t events := by
  have entry := (s.silent_beginEntry src).performs
  rcases s.takeInterrupt_cases t src h with ⟨v, -, rfl⟩ | ⟨-, acknowledged⟩
  · exact ⟨_, entry.trans (State.performs_callTo _ v)⟩
  · rcases State.acknowledge_cases _ t acknowledged with ⟨-, rfl⟩ | ⟨-, rfl⟩
    · exact ⟨_, (entry.trans (State.performs_note _ _ rfl)).trans (State.performs_callTo _ _)⟩
    · exact ⟨_, (((entry.trans (State.performs_note _ _ rfl)).trans (State.performs_note _ _ rfl)).trans
        (State.performs_note _ _ rfl)).trans (State.performs_callTo _ _)⟩

/-- A rule, SIM's too, changes memory in RAM only, and a change of SOD is seen. -/
theorem exec_evolves {i : Instr} {s t : State} (h : exec i s = .next t) : s.Evolves t ∧ s.SerialSeen t := by
  by_cases sim : i = .sim
  · rw [sim, exec_sim] at h
    cases h
    exact ⟨.of_same rfl rfl, (s.serialSeen_driveSod (simSod s.sod s.regs.a)).of_same rfl rfl⟩
  · obtain ⟨events, performs, -⟩ := exec_performs h sim
    exact ⟨performs.toEvolves, performs.serialSeen⟩

/-! ### The step -/

/-- All that a step can do to memory, the bus, SOD and the masks: reset, a SIM, or accesses only. -/
theorem step_effect {s t : State} (h : step s = .next t) :
    (s.now.resetIn = true ∧ t = s.latchRequests.resetEvent.advanceInputs) ∨
    (s.latchRequests.winner = none ∧ s.halted = false ∧ s.latchRequests.fetch.1 = .sim ∧ s.Evolves t ∧ s.SerialSeen t) ∨
    ∃ events, s.Performs t events := by
  obtain ⟨u, boundary, rfl⟩ := step_cases s t h
  have latched := s.silent_latchRequests.performs
  have used := u.silent_advanceInputs
  rcases s.latchRequests.boundary_cases u boundary with
    ⟨reset, rfl⟩ | ⟨src, -, -, taken⟩ | ⟨-, -, -, rfl⟩ | ⟨-, winner, running, runs⟩
  · exact .inl ⟨reset, rfl⟩
  · obtain ⟨events, performs⟩ := State.performs_takeInterrupt taken
    exact .inr (.inr ⟨_, (latched.trans performs).silent used⟩)
  · exact .inr (.inr ⟨_, latched.silent used⟩)
  · obtain ⟨w, rule, rfl⟩ := State.runInstruction_cases _ _ runs
    obtain ⟨fetches, fetch⟩ := s.latchRequests.performs_fetch
    have fetched := latched.trans fetch
    have finish := (w.silent_settleEnable s.latchRequests.irq.eiPending s.latchRequests.fetch.1).trans used
    by_cases sim : s.latchRequests.fetch.1 = .sim
    · obtain ⟨evolves, seen⟩ := exec_evolves rule
      exact .inr (.inl ⟨winner, running, sim, (fetched.toEvolves.trans evolves).trans finish.performs.toEvolves,
        (fetched.then_serialSeen seen).of_same finish.bus finish.sod⟩)
    · obtain ⟨events, performs, -⟩ := exec_performs rule sim
      exact .inr (.inr ⟨_, (fetched.trans performs).silent finish⟩)

/-- Every step keeps the platform, the canonical form of memory, and what is not RAM. -/
theorem step_evolves {s t : State} (h : step s = .next t) : s.Evolves t := by
  rcases step_effect h with ⟨-, rfl⟩ | ⟨-, -, -, evolves, -⟩ | ⟨events, performs⟩
  · exact .of_same rfl rfl
  · exact evolves
  · exact performs.toEvolves

/-- In every step a change of SOD is seen. -/
theorem step_serialSeen {s t : State} (h : step s = .next t) : s.SerialSeen t := by
  rcases step_effect h with ⟨-, rfl⟩ | ⟨-, -, -, -, seen⟩ | ⟨events, performs⟩
  · exact (s.serialSeen_driveSod false).of_same rfl rfl
  · exact seen
  · exact performs.serialSeen

/-- Settles O57: memory and the priority are kept by every part of a step. -/
theorem everyStepKeepsInvariant : Obligations.EveryStepKeepsInvariant := by
  rintro s t ⟨wf, priority⟩ h
  have evolves := step_evolves h
  exact ⟨evolves.wf wf, by rwa [evolves.params]⟩

/-- Settles O59: a write reaches RAM only, and nothing else writes memory. -/
theorem nonRamNeverChanges : Obligations.NonRamNeverChanges := by
  intro s t h
  have evolves := step_evolves h
  exact ⟨evolves.params, evolves.nonRam⟩

/-- Settles O44: of the three things a step can do, accesses keep the masks and SOD, and the other two are RESET IN and SIM. -/
theorem masksAndSodChangeOnlyBySim : Obligations.MasksAndSodChangeOnlyBySim := by
  intro s t h
  refine ⟨fun noReset noSim => ?_, step_serialSeen h⟩
  rcases step_effect h with ⟨reset, -⟩ | ⟨winner, running, sim, -, -⟩ | ⟨events, performs⟩
  · exact absurd (noReset.symm.trans reset) Bool.false_ne_true
  · exact absurd sim (noSim winner running)
  · exact ⟨performs.m55, performs.m65, performs.m75, performs.sod⟩

/-! ### The bus and the machine cycles -/

/-- The accesses of a rule, SIM's too, follow those of the fetch as the machine cycles say. -/
theorem exec_followsRow {i : Instr} {s t : State} (h : exec i s = .next t) :
    ∃ events : List BusEvent, t.env.bus = events.reverse ++ s.env.bus ∧ FollowsRow i s.flags (events.filter BusEvent.isAccess) := by
  by_cases sim : i = .sim
  · rw [sim, exec_sim] at h
    cases h
    rw [State.driveSod_env_bus, sim]
    split
    · exact ⟨[], rfl, fun _ _ => rfl⟩
    · exact ⟨[.serialOut _], rfl, fun _ _ => rfl⟩
  · obtain ⟨events, performs, follows⟩ := exec_performs h sim
    refine ⟨events, performs.bus, ?_⟩
    rwa [List.filter_eq_self.mpr performs.accesses]

/-- The events of a fetch are accesses. -/
theorem State.filter_fetchEvents (s : State) (i : Instr) : (s.fetchEvents i).filter BusEvent.isAccess = s.fetchEvents i := by
  unfold State.fetchEvents
  split
  · rfl
  · rfl
  · split <;> rfl

/-- Settles O49: the accesses of the fetch and then those of the rule. -/
theorem busFollowsMachineCycles : Obligations.BusFollowsMachineCycles := by
  intro s t i quiet running holds h
  obtain ⟨u, rule, rfl⟩ := step_next_of_holds quiet running holds h
  obtain ⟨events, bus, follows⟩ := exec_followsRow rule
  refine ⟨s.fetchEvents i ++ events, ?_, ?_⟩
  · show u.env.bus = _
    rw [bus, List.reverse_append, List.append_assoc]
    rfl
  · rw [List.filter_append, State.filter_fetchEvents]
    exact follows s rfl

end Sys2Proof.Machine
end

section
/-! PROOFS. Taking an interrupt (60_exceptions.md section 3), the INTR acknowledge (70_reset_and_hazards.md section 3), RESET IN
(70_reset_and_hazards.md section 1), and the stops of the machine (30_encoding.md section 4). -/

namespace Sys2Proof.Machine

/-! ### The boundary that takes an interrupt -/

/-- Without RESET IN, the winner is taken. -/
theorem boundary_of_winner {s : State} {src : Source} (noReset : s.now.resetIn = false)
    (winner : s.latchRequests.winner = some src) : s.latchRequests.boundary = s.latchRequests.takeInterrupt src := by
  simp [State.boundary, noReset, winner]

/-- A vectored source calls its vector. -/
theorem takeInterrupt_vectored {s : State} {src : Source} {v : Word} (vectored : vectorOf s.env.params src = some v) :
    s.takeInterrupt src = .next ((s.beginEntry src).callTo v) := by
  simp only [State.takeInterrupt, vectored]

/-- The step that takes a vectored interrupt. -/
theorem step_of_vectored {s : State} {src : Source} {v : Word} (noReset : s.now.resetIn = false)
    (winner : s.latchRequests.winner = some src) (vectored : vectorOf s.env.params src = some v) :
    step s = .next ((s.latchRequests.beginEntry src).callTo v).advanceInputs := by
  apply step_of_boundary
  rw [boundary_of_winner noReset winner]
  exact takeInterrupt_vectored vectored

/-- All that a call does. -/
theorem State.callTo_eq (s : State) (target : Word) :
    s.callTo target =
      { s with
        sp := s.sp - 2, pc := target, mem := (s.callTo target).mem
        env.bus := .memWrite (s.sp - 2) (BitVec.ofNat 8 (lowPart s.pc)) ::
          .memWrite (s.sp - 1) (BitVec.ofNat 8 (highPart s.pc)) :: s.env.bus } := by
  rw [← lowByte_eq_ofNat, ← highByte_eq_ofNat]
  simp only [State.callTo, State.push16, State.writeByte_eq, State.setPc, State.setSp]

/-- A call from a state with the stack, the memory and the pc of `s` stores the pc of `s`. -/
theorem State.stores_callTo_of_same {s u t : State} {target : Word} (hw : s.mem.wf = true) (sp : u.sp = s.sp)
    (pc : u.pc = s.pc) (mem : u.mem = s.mem) (params : u.env.params = s.env.params) (after : t.mem = (u.callTo target).mem) :
    s.Stores t [(s.sp - 1, BitVec.ofNat 8 (highPart s.pc)), (s.sp - 2, BitVec.ofNat 8 (lowPart s.pc))] := by
  obtain ⟨-, -, stores, -⟩ := u.calls_callTo target (by rwa [mem])
  rw [sp, pc] at stores
  exact (stores.of_same mem params).of_mem_eq after

/-- The interrupt cells after an entry has begun. -/
theorem State.beginEntry_irq (s : State) (src : Source) :
    (s.beginEntry src).irq =
      { s.irq with
        ie := false, eiPending := false
        i75 := if src = .rst75 then false else s.irq.i75
        trapTaken := if src = .trap then true else s.irq.trapTaken
        ieBeforeTrap := if src = .trap then s.enableBeforeTrap else s.irq.ieBeforeTrap } := by
  cases src <;> rfl

/-- The environment's side after an entry has begun: TRAP consumes its request and makes a draw. -/
theorem State.beginEntry_env (s : State) (src : Source) :
    (s.beginEntry src).env =
      { s.env with
        trapReq := if src = .trap then false else s.env.trapReq
        draws := (s.beginEntry src).env.draws } := by
  cases src <;> rfl

/-- An entry begins by changing the interrupt cells, the halt and the environment's side only. -/
theorem State.beginEntry_frame (s : State) (src : Source) :
    s.beginEntry src =
      { s with halted := false, irq := (s.beginEntry src).irq, env := (s.beginEntry src).env } := by
  cases src <;> rfl

/-- The enable a TRAP saves is the one that stood before it, unless an EI came directly before. -/
theorem State.enableBeforeTrap_of_settled {s : State} (settled : s.irq.eiPending = false) : s.enableBeforeTrap = s.irq.ie := by
  simp only [State.enableBeforeTrap, settled, Bool.false_eq_true, if_false]

/-- Settles O52: the entry's cells, then a call of the vector. -/
theorem vectoredInterruptEntry : Obligations.VectoredInterruptEntry := by
  intro s src v hw noReset winner vectored
  have irq := s.latchRequests.beginEntry_irq src
  have env := s.latchRequests.beginEntry_env src
  have calls := (s.latchRequests.beginEntry src).callTo_eq v
  rw [State.beginEntry_sp, State.beginEntry_pc] at calls
  refine ⟨_, step_of_vectored noReset winner vectored, ?frame,
    State.stores_callTo_of_same (u := s.latchRequests.beginEntry src) (target := v) hw (by simp) (by simp) (by simp) (by simp) rfl,
    ?irq, fun other => ?kept, fun trap settled => ?saved, ?env⟩
  case frame =>
    rw [calls, State.beginEntry_frame]
    rfl
  case irq => rw [State.advanceInputs_irq, State.callTo_irq, irq]; rfl
  case kept => rw [State.advanceInputs_irq, State.callTo_irq, irq]; exact if_neg other
  case saved =>
    rw [State.advanceInputs_irq, State.callTo_irq, irq]
    exact (if_pos trap).trans (State.enableBeforeTrap_of_settled (s := s.latchRequests) settled)
  case env =>
    rw [calls, State.advanceInputs, env]
    rfl

/-! ### TRAP and the RIM after it -/

/-- A TRAP, with no EI directly before: the enable is off, and saved for the next RIM, which is marked. -/
theorem step_of_trap {s : State} (noReset : s.now.resetIn = false) (winner : s.latchRequests.winner = some .trap)
    (settled : s.irq.eiPending = false) :
    ∃ t, step s = .next t ∧ t.irq.trapTaken = true ∧ t.irq.ieBeforeTrap = s.irq.ie ∧ t.irq.ie = false ∧
      t.irq.eiPending = false := by
  refine ⟨_, step_of_vectored noReset winner rfl, ?_⟩
  rw [State.advanceInputs_irq, State.callTo_irq, State.beginEntry_irq]
  exact ⟨rfl, State.enableBeforeTrap_of_settled (s := s.latchRequests) settled, rfl, rfl⟩

/-- Bit 3 of A after a RIM, which takes the mark of a TRAP away. -/
theorem exec_rim_bit (s : State) :
    ∃ t, exec .rim s = .next t ∧ t.regs.a.getLsbD 3 = s.rimEnableBit ∧ t.irq = { s.irq with trapTaken := false } := by
  obtain ⟨⟨-, -, -, enable⟩, -⟩ := s.rimByte_bits
  exact ⟨_, exec_rim s, enable, rfl⟩

/-- Settles O54: the first RIM takes the saved enable and the mark, the second one the current enable. -/
theorem firstRimAfterTrap : Obligations.FirstRimAfterTrap := by
  intro s noReset winner settled
  obtain ⟨t, stepped, taken, saved, off, still⟩ := step_of_trap noReset winner settled
  obtain ⟨u, first, bit, irq⟩ := exec_rim_bit t
  obtain ⟨w, second, bit', -⟩ := exec_rim_bit u
  refine ⟨t, u, w, stepped, first, second, ?_, ?_⟩
  · rw [bit, t.rimEnableBit_eq.1 taken, saved]
  · rw [bit', u.rimEnableBit_eq.2 (by rw [irq]) (by rw [irq]; exact still), irq]
    exact off

/-! ### RESET IN -/

/-- Settles O55: RESET IN is looked at before any request, and leaves memory and what the environment holds. -/
theorem resetInOverridesAll : Obligations.ResetInOverridesAll := by
  intro s reset
  have boundary : s.latchRequests.boundary = .next s.latchRequests.resetEvent := by simp [State.boundary, reset]
  refine ⟨_, step_of_boundary boundary, State.stores_nothing rfl, rfl, ?_⟩
  have bus : (if false = s.sod then s.env.bus else .serialOut false :: s.env.bus) =
      if s.sod = true then .serialOut false :: s.env.bus else s.env.bus := by cases s.sod <;> rfl
  rw [← bus]
  rfl

/-! ### The INTR acknowledge -/

/-- The bytes of RST n, in bits and in numbers. -/
theorem isRst_iff : ∀ op : Byte, op &&& 0xC7 = 0xC7 ↔ op.toNat % 8 = 7 ∧ 192 ≤ op.toNat := by decide +kernel

/-- The address that the byte of an RST n calls. -/
theorem toNat_rst_address (op : Byte) : ((fieldDDD op).setWidth 16 * 8).toNat = 8 * (op.toNat / 8 % 8) := by
  have field : (fieldDDD op).toNat = op.toNat / 8 % 8 := by
    rw [fieldDDD, BitVec.extractLsb'_toNat, Nat.shiftRight_eq_div_pow]
  have eight : (8 : Word).toNat = 8 := rfl
  rw [BitVec.toNat_mul, BitVec.toNat_setWidth, field, eight]
  omega

section
variable {s : State}

/-- RST n from the acknowledge is executed. -/
theorem acknowledge_rst (rst : s.now.inta1 &&& 0xC7 = 0xC7) :
    s.acknowledge = .next ((s.note (.inta s.now.inta1)).restart (fieldDDD s.now.inta1)) := by
  simp only [State.acknowledge, rst, if_true]

/-- So is CALL, whose two other bytes are acknowledged too. -/
theorem acknowledge_call (call : s.now.inta1 = 0xCD) :
    s.acknowledge =
      .next ((((s.note (.inta s.now.inta1)).note (.inta s.now.inta2)).note (.inta s.now.inta3)).callTo
        (joinBytes s.now.inta3 s.now.inta2)) := by
  have notRst : ¬ (0xCD : Byte) &&& 0xC7 = 0xC7 := by decide
  simp only [State.acknowledge, call, notRst, if_true, if_false]

/-- EI and DI are prohibited. -/
theorem acknowledge_prohibited (prohibited : s.now.inta1 = 0xFB ∨ s.now.inta1 = 0xF3) :
    s.acknowledge = .refused (.prohibitedAcknowledge s.now.inta1) := by
  have notRst : ¬ s.now.inta1 &&& 0xC7 = 0xC7 := by rcases prohibited with h | h <;> rw [h] <;> decide
  have notCall : ¬ s.now.inta1 = 0xCD := by rcases prohibited with h | h <;> rw [h] <;> decide
  simp only [State.acknowledge, notRst, notCall, prohibited, if_true, if_false]

/-- Every other byte is undescribed. -/
theorem acknowledge_undescribed (notRst : ¬ s.now.inta1 &&& 0xC7 = 0xC7) (notCall : ¬ s.now.inta1 = 0xCD)
    (allowed : ¬ (s.now.inta1 = 0xFB ∨ s.now.inta1 = 0xF3)) :
    s.acknowledge = .refused (.undescribedAcknowledge s.now.inta1) := by
  simp only [State.acknowledge, notRst, notCall, allowed, if_false]

/-- The state in which an INTR is acknowledged. -/
def State.atAcknowledge (s : State) : State := s.latchRequests.beginEntry .intr

/-- The boundary that acknowledges an INTR. -/
theorem boundary_of_intr (noReset : s.now.resetIn = false) (winner : s.latchRequests.winner = some .intr) :
    s.latchRequests.boundary = s.atAcknowledge.acknowledge :=
  boundary_of_winner noReset winner

/-- A refusal at the boundary is the step's. -/
theorem step_of_boundary_refused {r : Refusal} (h : s.latchRequests.boundary = .refused r) : step s = .refused r := by
  simp only [step, h]

/-- An acknowledged call, after the acknowledge reads have been noted: what O53 says of it but for pc and the bus. -/
theorem acknowledged_call {u : State} {target : Word} (hw : s.mem.wf = true)
    (noted : u = { s.atAcknowledge with env.bus := u.env.bus }) :
    (u.callTo target).advanceInputs =
      { s with
        sp := s.sp - 2, pc := target, halted := false, mem := (u.callTo target).mem
        env := (u.callTo target).advanceInputs.env
        irq := { s.irq with ie := false, eiPending := false, i75 := s.irq.i75 || s.now.rst75Edge } } ∧
    s.Stores (u.callTo target).advanceInputs
      [(s.sp - 1, BitVec.ofNat 8 (highPart s.pc)), (s.sp - 2, BitVec.ofNat 8 (lowPart s.pc))] ∧
    (u.callTo target).advanceInputs.env.inputs = s.env.inputs.tail ∧
    (u.callTo target).advanceInputs.env.bus =
      .memWrite (s.sp - 2) (BitVec.ofNat 8 (lowPart s.pc)) ::
        .memWrite (s.sp - 1) (BitVec.ofNat 8 (highPart s.pc)) :: u.env.bus := by
  rw [noted]
  refine ⟨?_, ?_, ?_, ?_⟩
  · rw [State.callTo_eq]
    rfl
  · exact State.stores_callTo_of_same (u := { s.atAcknowledge with env.bus := u.env.bus }) (target := target) hw rfl rfl rfl rfl rfl
  · rw [State.callTo_eq]
    rfl
  · rw [State.callTo_eq]
    rfl

/-- The step that acknowledges an INTR whose device drives an RST n. -/
theorem step_of_intr_rst (noReset : s.now.resetIn = false) (winner : s.latchRequests.winner = some .intr)
    (rst : s.now.inta1 &&& 0xC7 = 0xC7) :
    step s = .next ((s.atAcknowledge.note (.inta s.now.inta1)).callTo
      ((fieldDDD s.now.inta1).setWidth 16 * 8)).advanceInputs :=
  step_of_boundary ((boundary_of_intr noReset winner).trans (acknowledge_rst (s := s.atAcknowledge) rst))

/-- The step that acknowledges an INTR whose device drives a CALL. -/
theorem step_of_intr_call (noReset : s.now.resetIn = false) (winner : s.latchRequests.winner = some .intr)
    (call : s.now.inta1 = 0xCD) :
    step s = .next ((((s.atAcknowledge.note (.inta s.now.inta1)).note (.inta s.now.inta2)).note (.inta s.now.inta3)).callTo
      (joinBytes s.now.inta3 s.now.inta2)).advanceInputs :=
  step_of_boundary ((boundary_of_intr noReset winner).trans (acknowledge_call (s := s.atAcknowledge) call))

/-- The step that acknowledges an INTR whose device drives EI or DI. -/
theorem step_of_intr_prohibited (noReset : s.now.resetIn = false) (winner : s.latchRequests.winner = some .intr)
    (prohibited : s.now.inta1 = 0xFB ∨ s.now.inta1 = 0xF3) : step s = .refused (.prohibitedAcknowledge s.now.inta1) :=
  step_of_boundary_refused
    ((boundary_of_intr noReset winner).trans (acknowledge_prohibited (s := s.atAcknowledge) prohibited))

/-- The step that acknowledges an INTR whose device drives any other byte. -/
theorem step_of_intr_undescribed (noReset : s.now.resetIn = false) (winner : s.latchRequests.winner = some .intr)
    (notRst : ¬ s.now.inta1 &&& 0xC7 = 0xC7) (notCall : ¬ s.now.inta1 = 0xCD)
    (allowed : ¬ (s.now.inta1 = 0xFB ∨ s.now.inta1 = 0xF3)) : step s = .refused (.undescribedAcknowledge s.now.inta1) :=
  step_of_boundary_refused
    ((boundary_of_intr noReset winner).trans (acknowledge_undescribed (s := s.atAcknowledge) notRst notCall allowed))

end

/-- Settles O53: the byte decides which of the four outcomes of the acknowledge the step has. -/
theorem acknowledgeOfIntr : Obligations.AcknowledgeOfIntr := by
  intro s hw noReset winner
  by_cases rst : s.now.inta1 &&& 0xC7 = 0xC7
  · have notCall : ¬ s.now.inta1 = 0xCD := fun call => absurd (call ▸ rst) (by decide)
    rw [if_pos (.inl ((isRst_iff _).mp rst))]
    obtain ⟨frame, stores, inputs, bus⟩ := acknowledged_call (u := s.atAcknowledge.note (.inta s.now.inta1))
      (target := (fieldDDD s.now.inta1).setWidth 16 * 8) hw rfl
    refine ⟨_, step_of_intr_rst noReset winner rst, frame, stores, inputs, ?_⟩
    rw [if_neg notCall]
    exact ⟨toNat_rst_address _, bus⟩
  · have notRst : ¬ (s.now.inta1.toNat % 8 = 7 ∧ 192 ≤ s.now.inta1.toNat) := fun h => rst ((isRst_iff _).mpr h)
    by_cases call : s.now.inta1 = 0xCD
    · rw [if_pos (.inr call)]
      obtain ⟨frame, stores, inputs, bus⟩ := acknowledged_call
        (u := ((s.atAcknowledge.note (.inta s.now.inta1)).note (.inta s.now.inta2)).note (.inta s.now.inta3))
        (target := joinBytes s.now.inta3 s.now.inta2) hw rfl
      refine ⟨_, step_of_intr_call noReset winner call, frame, stores, inputs, ?_⟩
      rw [if_pos call]
      exact ⟨toNat_joinBytes _ _, bus⟩
    · rw [if_neg (not_or.mpr ⟨notRst, call⟩)]
      split
      · next prohibited => exact step_of_intr_prohibited noReset winner prohibited
      · next allowed => exact step_of_intr_undescribed noReset winner rst call allowed

/-! ### Where the machine stops -/

/-- An instruction that is run is completed, or it is one of the ten undefined first bytes. -/
theorem runInstruction_outcome (s : State) :
    (∃ t, s.runInstruction = .next t) ∨
    ∃ op ∈ undefinedOps, encode s.fetch.1 = [op] ∧ s.runInstruction = .refused (.undefinedOpcode op) := by
  unfold State.runInstruction
  rcases exec_outcome s.fetch.1 s.fetch.2 with ⟨t, completes⟩ | ⟨op, listed, enc, refused⟩
  · rw [completes]
    exact .inl ⟨_, rfl⟩
  · rw [refused]
    exact .inr ⟨op, listed, enc, rfl⟩

/-- Only INTR has no vector. -/
theorem eq_intr_of_vectorOf {p : Params} {src : Source} (h : vectorOf p src = none) : src = .intr := by
  cases src with
  | intr => rfl
  | _ => cases h

/-- An acknowledged INTR is answered with a next state, or refused by the byte, as the spec refuses it. -/
theorem intr_outcome {s : State} (noReset : s.now.resetIn = false) (winner : s.latchRequests.winner = some .intr) :
    (∃ t, step s = .next t) ∨
    (step s = .refused (.prohibitedAcknowledge s.now.inta1) ∧ (s.now.inta1 = 0xFB ∨ s.now.inta1 = 0xF3)) ∨
    (step s = .refused (.undescribedAcknowledge s.now.inta1) ∧ ¬ (s.now.inta1.toNat % 8 = 7 ∧ 192 ≤ s.now.inta1.toNat) ∧
      s.now.inta1 ∉ ([0xCD, 0xFB, 0xF3] : List Byte)) := by
  by_cases rst : s.now.inta1 &&& 0xC7 = 0xC7
  · exact .inl ⟨_, step_of_intr_rst noReset winner rst⟩
  · by_cases call : s.now.inta1 = 0xCD
    · exact .inl ⟨_, step_of_intr_call noReset winner call⟩
    · by_cases prohibited : s.now.inta1 = 0xFB ∨ s.now.inta1 = 0xF3
      · exact .inr (.inl ⟨step_of_intr_prohibited noReset winner prohibited, prohibited⟩)
      · refine .inr (.inr ⟨step_of_intr_undescribed noReset winner rst call prohibited, fun h => rst ((isRst_iff _).mpr h), ?_⟩)
        simp only [List.mem_cons, List.not_mem_nil, or_false, not_or]
        exact ⟨call, not_or.mp prohibited⟩

/-- Without RESET IN and without a winner, a machine that is halted or runs an instruction with a meaning has a next state. -/
theorem no_winner_outcome {s : State} (noReset : s.now.resetIn = false) (winner : s.latchRequests.winner = none) :
    (∃ t, step s = .next t) ∨
    (s.halted = false ∧ ∃ op ∈ undefinedOps, encode s.latchRequests.fetch.1 = [op] ∧
      step s = .refused (.undefinedOpcode op)) := by
  cases running : s.halted
  · have boundary := boundary_of_running noReset winner running
    rcases runInstruction_outcome s.latchRequests with ⟨t, completes⟩ | ⟨op, listed, enc, refused⟩
    · exact .inl ⟨_, step_of_boundary (boundary.trans completes)⟩
    · exact .inr ⟨rfl, op, listed, enc, step_of_boundary_refused (boundary.trans refused)⟩
  · exact .inl ⟨_, step_of_boundary (boundary_of_halted noReset winner running)⟩

/-- Settles O60: RESET IN, a vectored interrupt and the halt always have a next state; the acknowledge and the instruction at
pc have one or are refused as the spec refuses. -/
theorem stopsOnlyWhereSpecRefuses : Obligations.StopsOnlyWhereSpecRefuses := by
  intro s
  cases noReset : s.now.resetIn
  case true =>
    obtain ⟨t, stepped, -⟩ := resetInOverridesAll s noReset
    exact .inl ⟨t, stepped⟩
  case false =>
    cases winner : s.latchRequests.winner with
    | none =>
      rcases no_winner_outcome noReset winner with next | ⟨running, op, listed, enc, refused⟩
      · exact .inl next
      · exact .inr (.inl ⟨rfl, rfl, running, op, enc, refused, listed⟩)
    | some src =>
      cases vectored : vectorOf s.env.params src with
      | some v => exact .inl ⟨_, step_of_vectored noReset winner vectored⟩
      | none =>
        obtain rfl := eq_intr_of_vectorOf vectored
        rcases intr_outcome noReset winner with next | prohibited | undescribed
        · exact .inl next
        · exact .inr (.inr ⟨rfl, rfl, .inl prohibited⟩)
        · exact .inr (.inr ⟨rfl, rfl, .inr undescribed⟩)

end Sys2Proof.Machine
end
